-- ==== Sys2Proof/Word.lean ====
section
/-! DEFINITION. The word types of the spec's notation (00_scope.md R9): unsigned bit vectors, bit 0 the least significant.
A pair is a `W128`; its limbs are taken apart and put together in Machine/Limb.lean. -/

namespace Sys2Proof

/-- One bit: the width of `ILL` and `BUSY` (10_state.md R23, R24). -/
abbrev W1 := BitVec 1
/-- The width of an op code (30_encoding.md R51). -/
abbrev W8 := BitVec 8
/-- A half-word; also a binary32 pattern (00_scope.md R9, R13). -/
abbrev W32 := BitVec 32
/-- A limb, a word; also a binary64 pattern (00_scope.md R9, R13, R14). -/
abbrev W64 := BitVec 64
/-- A pair: `lo` is bits 63:0, `hi` is bits 127:64 (00_scope.md R9, 20_memory.md R41). -/
abbrev W128 := BitVec 128
/-- A command word, `CMD_BITS = 264` (30_encoding.md R50). -/
abbrev W264 := BitVec 264

end Sys2Proof
end

