-- ==== Sys2Proof/Machine/Limb.lean ====
section
/-! DEFINITION. Limb pairs: 00_scope.md R9, 20_memory.md R41, 40_limb_primitives.md R70. -/

namespace Sys2Proof.Machine

/-- `pair(h, l) = {h, l}` (R9). -/
def pair (h l : W64) : W128 := h ++ l

/-- `x.lo = x[63:0]` (R9). -/
def lo (x : W128) : W64 := x.extractLsb' 0 64

/-- `x.hi = x[127:64]` (R9). -/
def hi (x : W128) : W64 := x.extractLsb' 64 64

/-- `val(x) = x.hi * 2^64 + x.lo` (R70). -/
def val (x : W128) : Nat := (hi x).toNat * 2 ^ 64 + (lo x).toNat

end Sys2Proof.Machine
end

