-- ==== Sys2Proof/Machine/Helpers.lean ====
section
/-! DEFINITION. The helper operations on pairs that the units are built from (40_limb_primitives.md): comparison, construction from
a scalar, minimum and maximum, the bitwise operators, shifts, and the leading-zero count. None is a command. -/

namespace Sys2Proof.Machine

/-- Equality, limb by limb (R71). -/
def eq128 (x y : W128) : Bool := hi x == hi y && lo x == lo y

/-- The order, lexicographic on `(hi, lo)`, limbs unsigned (R71). -/
def lt128 (x y : W128) : Bool := BitVec.ult (hi x) (hi y) || (hi x == hi y && BitVec.ult (lo x) (lo y))

/-- `le = lt or eq` (R71). -/
def le128 (x y : W128) : Bool := lt128 x y || eq128 x y
/-- `gt(x, y) = lt(y, x)` (R71). -/
def gt128 (x y : W128) : Bool := lt128 y x
/-- `ge = not lt` (R71). -/
def ge128 (x y : W128) : Bool := !lt128 x y
/-- `ne = not eq` (R71). -/
def ne128 (x y : W128) : Bool := !eq128 x y

/-- `min128` (R73). -/
def min128 (x y : W128) : W128 := if lt128 y x then y else x
/-- `max128` (R73). -/
def max128 (x y : W128) : W128 := if lt128 x y then y else x

/-- Why a scalar has no conversion to a pair. -/
inductive ScalarError where
  /-- Wider than a word and no double-width integer: "a compile-time contract violation, not a runtime error" (R72), which a
  host-side helper refuses (93_implementation_defined.md U19). Safe: no such scalar reaches the hardware. -/
  | unsupportedWidth (bits : Nat)
  deriving DecidableEq, Repr

/-- A native double-width integer "splits into its two halves directly", signed or not (R72). -/
def fromDouble (v : W128) : W128 := pair (v.extractLsb' 64 64) (v.extractLsb' 0 64)

/-- The image of a scalar of `n` bits, given what it is for `n <= 64` (R72). -/
def fromScalar (n : Nat) (v : BitVec n) (image : W128) : Except ScalarError W128 :=
  if n ≤ 64 then .ok image
  else if n = 128 then .ok (fromDouble (v.setWidth 128))
  else .error (.unsupportedWidth n)

/-- A pair from an unsigned scalar of `n` bits (R72): up to a word, `lo` zero-extended and `hi` zero. -/
def fromUnsigned (n : Nat) (v : BitVec n) : Except ScalarError W128 := fromScalar n v (pair 0 (v.setWidth 64))

/-- A pair from a signed scalar of `n` bits (R72): up to a word, `lo` sign-extended and `hi` all ones when it is negative. -/
def fromSigned (n : Nat) (v : BitVec n) : Except ScalarError W128 :=
  fromScalar n v (pair (if v.msb then 0xFFFFFFFFFFFFFFFF#64 else 0#64) (v.signExtend 64))

/-- `and128` (R74). -/
def and128 (x y : W128) : W128 := pair (hi x &&& hi y) (lo x &&& lo y)
/-- `or128` (R74). -/
def or128 (x y : W128) : W128 := pair (hi x ||| hi y) (lo x ||| lo y)
/-- `xor128` (R74). -/
def xor128 (x y : W128) : W128 := pair (hi x ^^^ hi y) (lo x ^^^ lo y)
/-- `not128` (R74). -/
def not128 (x : W128) : W128 := pair (~~~hi x) (~~~lo x)

/-- `shl128`, the logical left shift, its arms as R76 gives them; an amount of 128 or more gives zero (R75, D17). The zero is the
spec's decision where the source says "undefined/clamped": UNVERIFIED, log entry 8: unsafe. -/
def shl128 (x : W128) (b : Nat) : W128 :=
  if b = 0 then x
  else if b < 64 then pair ((hi x <<< b) ||| (lo x >>> (64 - b))) (lo x <<< b)
  else if b < 128 then pair (lo x <<< (b - 64)) 0
  else pair 0 0

/-- `shr128`, the logical right shift (R77). -/
def shr128 (x : W128) (b : Nat) : W128 :=
  if b = 0 then x
  else if b < 64 then pair (hi x >>> b) ((lo x >>> b) ||| (hi x <<< (64 - b)))
  else if b < 128 then pair 0 (hi x >>> (b - 64))
  else pair 0 0

/-- `clz64` (R78): `63 - floor(log2 w)`, and 64 for zero (D18; UNVERIFIED, log entry 17: safe, no rule evaluates it there). -/
def clz64 (w : W64) : Nat := if w = 0 then 64 else 63 - Nat.log2 w.toNat

end Sys2Proof.Machine
end

