-- ==== Sys2Proof/Config.lean ====
section
/-! DEFINITION. What is fixed when the block is built: the parameters the source fixes (00_scope.md R7) and the ones it leaves
open (R8). An open parameter is an opaque constant: nothing can be proved of its values. -/

namespace Sys2Proof.Config

/-- `SQRT_ITERS` (R7): "exactly 8 fixed iterations". -/
def SQRT_ITERS : Nat := 8
/-- `CBRT_ITERS` (R7, R136): "exactly 47 fixed iterations"; must be odd. -/
def CBRT_ITERS : Nat := 47
/-- `SQRT_CEILING` (R7, R130): accuracy of the square root is claimed only below it. No command tests it. -/
def SQRT_CEILING : Nat := 2 ^ 124
/-- `F2I_MIN` (R7): floating-point inputs less than it convert to 0. -/
def F2I_MIN : Nat := 1
/-- `F2I_MAX` (R7): floating-point inputs greater than it convert to 0. The threshold is the real number 10^39 (R150). -/
def F2I_MAX : Nat := 10 ^ 39
/-- `SENTINEL64` (R7): all bits set. -/
def SENTINEL64 : W64 := 0xFFFFFFFFFFFFFFFF#64
/-- The base of the divider's digits, 2^`DIV_DIGIT_BITS` with `DIV_DIGIT_BITS` = 32 (R7). -/
def DIV_BASE : Nat := 2 ^ 32
/-- `DIV_MAX_OVERSHOOT` (R7): an estimated quotient digit is at most this much too large. -/
def DIV_MAX_OVERSHOOT : Nat := 2

/-- The open parameter `LAT` (R8, 70_reset_and_hazards.md R202), less one: how many edges beyond the first pass between
acceptance and completion. It takes the whole command word, which covers the recommended case that only the op code counts.
DESIGN CHOICE, log entry 5: safe, it allows more latencies than R202 recommends. -/
opaque latencyBeyondOne : W264 → Nat

/-- The open parameter `FCBRT : F64 -> F64` (R8, 44_root_extraction.md R134): a floating-point cube-root estimate, a total
function of its operand alone. DESIGN CHOICE, log entry 6: a free value, safe, nothing constrains it. -/
opaque FCBRT : W64 → W64

end Sys2Proof.Config
end

