-- ==== Sys2Proof/Syntax.lean ====
section
/-! DEFINITION. The commands: the raw command as it stands on the port (30_encoding.md R51) and the decoded instruction, one
constructor per row of spec/opcode_table.json, holding exactly the operand bits its format reads (R52). -/

namespace Sys2Proof

/-- The fields of a command word (30_encoding.md R51), as the ports `cmd_op`, `cmd_a_hi`, `cmd_a_lo`, `cmd_b_hi`, `cmd_b_lo`
carry them. Every value of every field is possible. -/
structure Command where
  op  : W8
  aHi : W64
  aLo : W64
  bHi : W64
  bLo : W64
  deriving DecidableEq, Repr

/-- The operand formats (30_encoding.md R52): which operand bits a command reads. -/
inductive Format where
  /-- reads `A` and `B` -/
  | PP
  /-- reads `A` and `B.lo` -/
  | PW
  /-- reads `A.lo` and `B.lo` -/
  | WW
  /-- reads `A` -/
  | P
  /-- reads `A.lo` as a binary64 pattern -/
  | D
  /-- reads `A.lo[31:0]` as a binary32 pattern -/
  | F
  deriving DecidableEq, Repr

/-- The eight units of the block (00_scope.md R1, R3). -/
inductive FunctionalUnit where
  | carryChainAdder128
  | carryChainSubtractor128
  | wideningMultiplier64x64To128
  | longDivider128by64
  | newtonRaphsonSqrtIter
  | newtonRaphsonCbrtIter
  | intToFpConverter
  | fpToIntConverter
  deriving DecidableEq, Repr

/-- The sixteen commands (30_encoding.md R54). A constructor's arguments are the bits its format reads, nothing else. -/
inductive Instr where
  /-- ADD128, op code 0x00, format PP -/
  | add128 (a b : W128)
  /-- SUB128, op code 0x01, format PP -/
  | sub128 (a b : W128)
  /-- INC128, op code 0x02, format P -/
  | inc128 (a : W128)
  /-- DEC128, op code 0x03, format P -/
  | dec128 (a : W128)
  /-- MUL64W, op code 0x10, format WW -/
  | mul64w (a b : W64)
  /-- MUL128X64, op code 0x11, format PW -/
  | mul128x64 (a : W128) (y : W64)
  /-- DIV128TO64, op code 0x20, format PW -/
  | div128to64 (a : W128) (d : W64)
  /-- DIV128TO128, op code 0x21, format PW -/
  | div128to128 (a : W128) (d : W64)
  /-- SQRT_ITER, op code 0x30, format PW: radicand and current estimate -/
  | sqrtIter (a : W128) (r : W64)
  /-- ISQRT, op code 0x31, format P -/
  | isqrt (a : W128)
  /-- CBRT_ITER, op code 0x32, format PW: radicand and current estimate -/
  | cbrtIter (a : W128) (r : W64)
  /-- ICBRT, op code 0x33, format P -/
  | icbrt (a : W128)
  /-- U128_TO_F64, op code 0x40, format P -/
  | u128ToF64 (a : W128)
  /-- U128_TO_F32, op code 0x41, format P -/
  | u128ToF32 (a : W128)
  /-- F64_TO_U128, op code 0x42, format D: a binary64 pattern -/
  | f64ToU128 (p : W64)
  /-- F32_TO_U128, op code 0x43, format F: a binary32 pattern -/
  | f32ToU128 (p : W32)
  deriving DecidableEq, Repr

/-- The pseudo-instructions of the assembler (30_encoding.md R60). -/
inductive Pseudo where
  /-- `MOD128 x, d`: the host then reads `S` -/
  | mod128 (x : W128) (d : W64)
  /-- `DIV x, d`: the host then reads `R` -/
  | div (x : W128) (d : W64)
  /-- `MUL x, y` -/
  | mul (x : W128) (y : W64)
  /-- `INC x` -/
  | inc (x : W128)
  /-- `DEC x` -/
  | dec (x : W128)
  deriving DecidableEq, Repr

/-- The format of each command (30_encoding.md R54). -/
def Instr.format : Instr → Format
  | .add128 _ _ => .PP
  | .sub128 _ _ => .PP
  | .inc128 _ => .P
  | .dec128 _ => .P
  | .mul64w _ _ => .WW
  | .mul128x64 _ _ => .PW
  | .div128to64 _ _ => .PW
  | .div128to128 _ _ => .PW
  | .sqrtIter _ _ => .PW
  | .isqrt _ => .P
  | .cbrtIter _ _ => .PW
  | .icbrt _ => .P
  | .u128ToF64 _ => .P
  | .u128ToF32 _ => .P
  | .f64ToU128 _ => .D
  | .f32ToU128 _ => .F

/-- The unit that executes each command (00_scope.md R3, 30_encoding.md R54). -/
def Instr.unit : Instr → FunctionalUnit
  | .add128 _ _ => .carryChainAdder128
  | .sub128 _ _ => .carryChainSubtractor128
  | .inc128 _ => .carryChainAdder128
  | .dec128 _ => .carryChainSubtractor128
  | .mul64w _ _ => .wideningMultiplier64x64To128
  | .mul128x64 _ _ => .wideningMultiplier64x64To128
  | .div128to64 _ _ => .longDivider128by64
  | .div128to128 _ _ => .longDivider128by64
  | .sqrtIter _ _ => .newtonRaphsonSqrtIter
  | .isqrt _ => .newtonRaphsonSqrtIter
  | .cbrtIter _ _ => .newtonRaphsonCbrtIter
  | .icbrt _ => .newtonRaphsonCbrtIter
  | .u128ToF64 _ => .intToFpConverter
  | .u128ToF32 _ => .intToFpConverter
  | .f64ToU128 _ => .fpToIntConverter
  | .f32ToU128 _ => .fpToIntConverter

/-- The mnemonic of each command, as spec/opcode_table.json spells it. -/
def Instr.mnemonic : Instr → String
  | .add128 _ _ => "ADD128"
  | .sub128 _ _ => "SUB128"
  | .inc128 _ => "INC128"
  | .dec128 _ => "DEC128"
  | .mul64w _ _ => "MUL64W"
  | .mul128x64 _ _ => "MUL128X64"
  | .div128to64 _ _ => "DIV128TO64"
  | .div128to128 _ _ => "DIV128TO128"
  | .sqrtIter _ _ => "SQRT_ITER"
  | .isqrt _ => "ISQRT"
  | .cbrtIter _ _ => "CBRT_ITER"
  | .icbrt _ => "ICBRT"
  | .u128ToF64 _ => "U128_TO_F64"
  | .u128ToF32 _ => "U128_TO_F32"
  | .f64ToU128 _ => "F64_TO_U128"
  | .f32ToU128 _ => "F32_TO_U128"

end Sys2Proof
end

