-- ==== Sys2Proof/Machine/Operands.lean ====
section
/-! DEFINITION. The operand forms (30_encoding.md R52): what each format reads of a command. There is no immediate, no sign
extension, no scaling, no register number and no addressing mode; every operand is a full field taken as an unsigned number. -/

namespace Sys2Proof.Machine

/-- Operand pair `A` (R51). -/
def operandA (c : Command) : W128 := pair c.aHi c.aLo

/-- Operand pair `B` (R51). -/
def operandB (c : Command) : W128 := pair c.bHi c.bLo

/-- The binary32 pattern of format `F`: `A.lo[31:0]` (R52, 45_conversion.md R145). -/
def operandF32 (c : Command) : W32 := c.aLo.extractLsb' 0 32

/-- A binary32 pattern in a limb, the bits above it zero (30_encoding.md R58, 45_conversion.md R145): `zext_64`. -/
def zext64 (p : W32) : W64 := p.setWidth 64

end Sys2Proof.Machine
end

