-- ==== Sys2Proof/WellFormed.lean ====
section
/-! DEFINITION. What a well-formed command is: its op code is one of the sixteen (30_encoding.md R56, 70_reset_and_hazards.md
R201) and the operand bits its format ignores are zero, as the assembler writes them (R55, R59). An `Instr` holds only the bits
its format reads, each a bit vector of the field's width, and no command has an invalid operand pattern (40_limb_primitives.md
R70), so every `Instr` is well formed. The hardware demands neither of a command: it completes every command word. -/

namespace Sys2Proof

/-- The reserved op codes, by the ranges 30_encoding.md R56 lists. -/
def reservedOp (op : W8) : Bool :=
  (0x04#8 ≤ op && op ≤ 0x0F#8) || (0x12#8 ≤ op && op ≤ 0x1F#8) || (0x22#8 ≤ op && op ≤ 0x2F#8) ||
    (0x34#8 ≤ op && op ≤ 0x3F#8) || (0x44#8 ≤ op && op ≤ 0x4F#8) || 0x50#8 ≤ op

/-- The format an op code selects (30_encoding.md R54); none for a reserved op code. -/
def Format.ofOp (op : W8) : Option Format :=
  if op = 0x00#8 || op = 0x01#8 then some .PP
  else if op = 0x10#8 then some .WW
  else if op = 0x11#8 || op = 0x20#8 || op = 0x21#8 || op = 0x30#8 || op = 0x32#8 then some .PW
  else if op = 0x02#8 || op = 0x03#8 || op = 0x31#8 || op = 0x33#8 || op = 0x40#8 || op = 0x41#8 then some .P
  else if op = 0x42#8 then some .D
  else if op = 0x43#8 then some .F
  else none

/-- The operand bits a format ignores are all zero (30_encoding.md R52, R55, R59). -/
def Format.ignoredBitsZero (f : Format) (c : Command) : Bool :=
  match f with
  | .PP => true
  | .PW => c.bHi == 0
  | .WW => c.aHi == 0 && c.bHi == 0
  | .P => c.bHi == 0 && c.bLo == 0
  | .D => c.aHi == 0 && c.bHi == 0 && c.bLo == 0
  | .F => c.aLo >>> 32 == 0 && c.aHi == 0 && c.bHi == 0 && c.bLo == 0

/-- The command an assembler writes: a legal op code, and zero in every ignored bit. -/
def Command.wellFormed (c : Command) : Bool :=
  !reservedOp c.op && ((Format.ofOp c.op).map (·.ignoredBitsZero c)).getD false

/-- Every `Instr` is well formed: its operands are full fields of their width and every pattern of them is valid
(30_encoding.md R52, 40_limb_primitives.md R70). -/
def Instr.wellFormed : Instr → Bool
  | .add128 _ _ => true
  | .sub128 _ _ => true
  | .inc128 _ => true
  | .dec128 _ => true
  | .mul64w _ _ => true
  | .mul128x64 _ _ => true
  | .div128to64 _ _ => true
  | .div128to128 _ _ => true
  | .sqrtIter _ _ => true
  | .isqrt _ => true
  | .cbrtIter _ _ => true
  | .icbrt _ => true
  | .u128ToF64 _ => true
  | .u128ToF32 _ => true
  | .f64ToU128 _ => true
  | .f32ToU128 _ => true

end Sys2Proof
end

