-- ==== Sys2Proof/Decode.lean ====
section
/-! DEFINITION. Decoding and encoding (30_encoding.md R50 to R60). `decode` is total on all 2^264 command words: it answers one of
the sixteen instructions or names the reserved op code. Operand fields take no part in decoding (R54). -/

namespace Sys2Proof

open Sys2Proof.Machine

/-- Why a command word is no instruction. -/
inductive DecodeError where
  /-- The op code is not in the table of 30_encoding.md R54, so it is reserved (R56). -/
  | reservedOpCode (op : W8)
  deriving DecidableEq, Repr

/-- The 264-bit word of a command: `OP` at bits 263:256, then `A.hi`, `A.lo`, `B.hi`, `B.lo` (30_encoding.md R51). -/
def Command.toWord (c : Command) : W264 := c.op ++ c.aHi ++ c.aLo ++ c.bHi ++ c.bLo

/-- The fields of a 264-bit command word (30_encoding.md R51). -/
def Command.ofWord (w : W264) : Command where
  op  := w.extractLsb' 256 8
  aHi := w.extractLsb' 192 64
  aLo := w.extractLsb' 128 64
  bHi := w.extractLsb' 64 64
  bLo := w.extractLsb' 0 64

/-- Decoding (30_encoding.md R54, R57): a match on the whole op code whose last arm takes every reserved code. The bits a
format ignores are dropped (R55). -/
def decode (c : Command) : Except DecodeError Instr :=
  match c.op with
  | 0x00#8 => .ok (.add128 (operandA c) (operandB c))
  | 0x01#8 => .ok (.sub128 (operandA c) (operandB c))
  | 0x02#8 => .ok (.inc128 (operandA c))
  | 0x03#8 => .ok (.dec128 (operandA c))
  | 0x10#8 => .ok (.mul64w c.aLo c.bLo)
  | 0x11#8 => .ok (.mul128x64 (operandA c) c.bLo)
  | 0x20#8 => .ok (.div128to64 (operandA c) c.bLo)
  | 0x21#8 => .ok (.div128to128 (operandA c) c.bLo)
  | 0x30#8 => .ok (.sqrtIter (operandA c) c.bLo)
  | 0x31#8 => .ok (.isqrt (operandA c))
  | 0x32#8 => .ok (.cbrtIter (operandA c) c.bLo)
  | 0x33#8 => .ok (.icbrt (operandA c))
  | 0x40#8 => .ok (.u128ToF64 (operandA c))
  | 0x41#8 => .ok (.u128ToF32 (operandA c))
  | 0x42#8 => .ok (.f64ToU128 c.aLo)
  | 0x43#8 => .ok (.f32ToU128 (operandF32 c))
  | op => .error (.reservedOpCode op)

/-- Decoding of a command word. -/
def decodeWord (w : W264) : Except DecodeError Instr := decode (Command.ofWord w)

/-- The assembler's command for an instruction: the op code of 30_encoding.md R54 and zero in every ignored bit (R55, R59). -/
def encode : Instr → Command
  | .add128 a b => ⟨0x00#8, hi a, lo a, hi b, lo b⟩
  | .sub128 a b => ⟨0x01#8, hi a, lo a, hi b, lo b⟩
  | .inc128 a => ⟨0x02#8, hi a, lo a, 0, 0⟩
  | .dec128 a => ⟨0x03#8, hi a, lo a, 0, 0⟩
  | .mul64w a b => ⟨0x10#8, 0, a, 0, b⟩
  | .mul128x64 a y => ⟨0x11#8, hi a, lo a, 0, y⟩
  | .div128to64 a d => ⟨0x20#8, hi a, lo a, 0, d⟩
  | .div128to128 a d => ⟨0x21#8, hi a, lo a, 0, d⟩
  | .sqrtIter a r => ⟨0x30#8, hi a, lo a, 0, r⟩
  | .isqrt a => ⟨0x31#8, hi a, lo a, 0, 0⟩
  | .cbrtIter a r => ⟨0x32#8, hi a, lo a, 0, r⟩
  | .icbrt a => ⟨0x33#8, hi a, lo a, 0, 0⟩
  | .u128ToF64 a => ⟨0x40#8, hi a, lo a, 0, 0⟩
  | .u128ToF32 a => ⟨0x41#8, hi a, lo a, 0, 0⟩
  | .f64ToU128 p => ⟨0x42#8, 0, p, 0, 0⟩
  | .f32ToU128 p => ⟨0x43#8, 0, zext64 p, 0, 0⟩

/-- The command word of an instruction. -/
def encodeWord (i : Instr) : W264 := (encode i).toWord

/-- The bits of a command word that take part in its meaning: the op code and the operand bits the format reads
(30_encoding.md R52, R54). -/
def Format.readMask : Format → W264
  | .PP => 0xFFFFFFFFFFFFFFFFFFFFFFFFFFFFFFFFFFFFFFFFFFFFFFFFFFFFFFFFFFFFFFFFFF#264
  | .PW => 0xFFFFFFFFFFFFFFFFFFFFFFFFFFFFFFFFFF0000000000000000FFFFFFFFFFFFFFFF#264
  | .WW => 0xFF0000000000000000FFFFFFFFFFFFFFFF0000000000000000FFFFFFFFFFFFFFFF#264
  | .P  => 0xFFFFFFFFFFFFFFFFFFFFFFFFFFFFFFFFFF00000000000000000000000000000000#264
  | .D  => 0xFF0000000000000000FFFFFFFFFFFFFFFF00000000000000000000000000000000#264
  | .F  => 0xFF000000000000000000000000FFFFFFFF00000000000000000000000000000000#264

/-- What a pseudo-instruction expands to (30_encoding.md R60). -/
def Pseudo.expand : Pseudo → Instr
  | .mod128 x d => .div128to128 x d
  | .div x d => .div128to128 x d
  | .mul x y => .mul128x64 x y
  | .inc x => .inc128 x
  | .dec x => .dec128 x

/-- The command whose word is the number `w`: bit `k` of `w` is bit `k` of `CMD` (30_encoding.md R50, R51). -/
def Command.ofNat (w : Nat) : Command where
  op  := BitVec.ofNat 8 (w / 2 ^ 256)
  aHi := BitVec.ofNat 64 (w / 2 ^ 192)
  aLo := BitVec.ofNat 64 (w / 2 ^ 128)
  bHi := BitVec.ofNat 64 (w / 2 ^ 64)
  bLo := BitVec.ofNat 64 w

/-- The command given as spec/opcode_table.json numbers its bits: a command is ONE word of 264 bits (R50), whose low `nbits` bits
are those of `w` and whose other bits are zero. -/
def tableCommand (nbits w : Nat) : Command := Command.ofNat (if nbits < 264 then w % 2 ^ nbits else w)

/-- What the decoder reads from a command so given. -/
def decodeTableWord (nbits w : Nat) : Option Instr :=
  match decode (tableCommand nbits w) with
  | .ok i => some i
  | .error _ => none

end Sys2Proof
end

