-- ==== Sys2Proof/Machine/State.lean ====
section
/-! DEFINITION. The state of one lane (10_state.md R20 to R34), as plain data, and its value after reset. There is no memory, no
register file, no program counter and no mode (R25 to R29). -/

namespace Sys2Proof.Machine

/-- The values of a lane's input ports at one rising edge of `clk` (10_state.md R31). -/
structure Ports where
  /-- `rst`, synchronous reset, active high -/
  rst : Bool
  /-- `cmd_valid` -/
  cmdValid : Bool
  /-- `cmd_op`, `cmd_a_hi`, `cmd_a_lo`, `cmd_b_hi`, `cmd_b_lo` -/
  cmd : Command
  deriving DecidableEq, Repr

/-- The hidden state of a busy lane (10_state.md R30): the command latched at acceptance (R32) and how many rising edges remain
until it completes (R33); at the edge where one remains, it completes. -/
structure InFlight where
  cmd : Command
  remaining : Nat
  deriving DecidableEq, Repr

/-- One lane. -/
structure State where
  /-- `R`, the result register (R21) -/
  R : W128
  /-- `S`, the secondary result register (R22) -/
  S : W64
  /-- `ILL`, the illegal-command flag (R23) -/
  ILL : W1
  /-- `BUSY` (R24) is 1 exactly when this holds a command; no hidden state survives completion (R30). DESIGN CHOICE, log entry
  4: safe, one home for `BUSY` and the command it announces. -/
  inFlight : Option InFlight
  /-- `rsp_valid` in the present cycle (R31, R33) -/
  rspValid : Bool
  /-- THE MODEL'S OWN: what the host drives on the input ports at the coming edges, the next edge first; past its end the ports
  are idle. DESIGN CHOICE, log entry 2: safe, every host behaviour between two edges is some list. -/
  host : List Ports
  /-- THE MODEL'S OWN: since the last reset a reserved op code has completed, so the run is outside the spec's guarantee
  (30_encoding.md R56, 90_conflicts.md C12). DESIGN CHOICE, log entry 10: safe, no hardware output depends on it. -/
  outsideGuarantee : Bool
  deriving DecidableEq, Repr

/-- Why a step stops the machine: never. No command raises an exception, traps, aborts or withholds its response
(60_exceptions.md R170), so there is no constructor, and none can be raised. -/
inductive Fault where
  deriving DecidableEq, Repr

/-- Why the model has no meaning for an instruction. -/
inductive Refusal where
  /-- An instruction this model does not reach yet, by its mnemonic; raised by `exec` alone, and by no arm of it now. Safe: the
  model stops where the hardware goes on. -/
  | notModelled (mnemonic : String)
  deriving DecidableEq, Repr

/-- The lane after reset (10_state.md R34, 70_reset_and_hazards.md R190): `R`, `S`, `ILL`, `BUSY` and `rsp_valid` are zero. The
two fields of the model's own start empty: nothing presented yet, no reserved op code completed. -/
def State.reset : State where
  R := 0
  S := 0
  ILL := 0
  inFlight := none
  rspValid := false
  host := []
  outsideGuarantee := false

end Sys2Proof.Machine
end

