-- ==== Sys2Proof/Machine/Ops.lean ====
section
/-! DEFINITION. The operations on a lane's registers and ports: sampling the ports, acceptance, counting down to completion,
completion, reset. Completion and reset are the only two that write `R`, `S`, `ILL` (70_reset_and_hazards.md R190). There is no
taking of an exception and no return from one: "The core never raises exceptions or aborts" (60_exceptions.md R170, R175, R176);
the nearest thing is the response to a reserved op code (30_encoding.md R56), written in Flags.lean and completed here. -/

namespace Sys2Proof.Machine

/-- A response: the 193 bits a completion writes at one edge (10_state.md R33, 30_encoding.md R58). -/
structure Response where
  R : W128
  S : W64
  ILL : W1
  deriving DecidableEq, Repr

/-- The response registers as they stand. -/
def State.response (s : State) : Response := ⟨s.R, s.S, s.ILL⟩

/-- `BUSY` (10_state.md R24): 1 from acceptance until completion. -/
def State.BUSY (s : State) : W1 := if s.inFlight.isSome then 1#1 else 0#1

/-- `cmd_ready = not BUSY` (10_state.md R24, R31). -/
def State.cmdReady (s : State) : W1 := ~~~s.BUSY

/-- The output ports (10_state.md R31). -/
structure Outputs where
  cmdReady : W1
  rspValid : W1
  rHi : W64
  rLo : W64
  s : W64
  ill : W1
  deriving DecidableEq, Repr

/-- What the host can read in the present cycle: reading has no side effect (20_memory.md R42), and nothing else of the lane is
visible (10_state.md R30). -/
def State.outputs (s : State) : Outputs :=
  ⟨s.cmdReady, if s.rspValid then 1#1 else 0#1, hi s.R, lo s.R, s.S, s.ILL⟩

/-- Input ports at which the host does nothing. -/
def Ports.idle : Ports := ⟨false, false, ⟨0, 0, 0, 0, 0⟩⟩

/-- Input ports at which the host presents a command (10_state.md R32). -/
def Ports.present (c : Command) : Ports := ⟨false, true, c⟩

/-- Input ports at which the host asserts `rst` (70_reset_and_hazards.md R190). -/
def Ports.reset : Ports := ⟨true, false, ⟨0, 0, 0, 0, 0⟩⟩

/-- The input ports at the coming edge; idle past the end of what the host has been said to do. -/
def State.portsNow (s : State) : Ports := s.host.headD Ports.idle

/-- The coming edge passes: its port values are used up, and `rsp_valid` has had its one cycle (10_state.md R31, R33). -/
def nextEdge (s : State) : State := { s with host := s.host.tail, rspValid := false }

/-- `LAT` (00_scope.md R8, 10_state.md R33): rising edges from acceptance to completion, finite and at least 1. -/
def latency (c : Command) : Nat := Config.latencyBeyondOne c.toWord + 1

/-- Acceptance (10_state.md R32): the lane latches the command and becomes busy. `R`, `S`, `ILL` keep the previous response. -/
def accept (c : Command) (s : State) : State := { s with inFlight := some ⟨c, latency c⟩ }

/-- An edge at which the command in flight does not complete yet: no register of the lane shows anything (10_state.md R30). -/
def countDown (f : InFlight) (s : State) : State := { s with inFlight := some { f with remaining := f.remaining - 1 } }

/-- Completion (10_state.md R33): at one edge `R`, `S`, `ILL` take the response, `BUSY` falls, and `rsp_valid` is driven for the
cycle that follows. Nothing of the hidden state survives (R30). -/
def complete (r : Response) (s : State) : State :=
  { s with R := r.R, S := r.S, ILL := r.ILL, inFlight := none, rspValid := true }

/-- Reset (70_reset_and_hazards.md R190, R192): every register takes its reset value and a command in flight is discarded without
a response. What the host does at later edges is not the lane's. -/
def resetLane (s : State) : State := { State.reset with host := s.host }

/-- The state in which `c` is the command whose completion the next edge brings, that edge not being a reset. Nothing else
changes. DESIGN CHOICE, log entry 3: safe, it stands for acceptance at some earlier edge and the waiting that follows. -/
def placeCommand (c : Command) (s : State) : State :=
  { s with
    inFlight := some ⟨c, 1⟩
    host := match s.host with
      | [] => []
      | p :: ps => { p with rst := false } :: ps }

end Sys2Proof.Machine
end

