-- ==== Sys2Proof/Machine/Flags.lean ====
section
/-! DEFINITION. The one flag, `ILL`, and the shapes of a response (10_state.md R23, 30_encoding.md R56 to R58, 60_exceptions.md
R172). There is no carry, borrow, overflow, zero, sign, division-overflow, inexact or invalid flag (R23, R97, R103, R155). What a
host computes instead of the flags it is not given stands at the end (41_carry_chain.md R97, 42_widening_multiply.md R103). -/

namespace Sys2Proof.Machine

/-- `ILL` of a legal command: 0, whatever its operands (R172). -/
def illLegal : W1 := 0#1

/-- `ILL` of a reserved op code: 1 (R172). -/
def illReserved : W1 := 1#1

/-- A legal command whose result is a pair and which has no secondary result (R57, R58). -/
def respondPair (r : W128) : Response := ⟨r, 0, illLegal⟩

/-- A legal command whose result is a word: `R.lo` holds it, `R.hi` and `S` are 0 (R57, R58). -/
def respondWord (w : W64) : Response := ⟨pair 0 w, 0, illLegal⟩

/-- A division: the quotient in `R`, the remainder in `S` (10_state.md R22, 30_encoding.md R57). -/
def respondDivision (q : W128) (rem : W64) : Response := ⟨q, rem, illLegal⟩

/-- A reserved op code: all bits set and `ILL = 1`, whatever the operands (30_encoding.md R56). -/
def respondReserved : Response := ⟨pair Config.SENTINEL64 Config.SENTINEL64, Config.SENTINEL64, illReserved⟩

/-- The carry out of bit 127 of an addition with first operand `a` and result `r`, as the host finds it (R97). -/
def hostCarryOut (r a : W128) : Bool := lt128 r a

/-- The borrow out of bit 127 of `a - b`, as the host finds it (R97). -/
def hostBorrowOut (a b : W128) : Bool := lt128 a b

/-- Whether MUL128X64 of `a` and `y` wraps, as the host finds it (R103): the dropped half of `a.hi * y` is not zero, or the
high-limb addition carries. -/
def hostMulWraps (a : W128) (y : W64) : Bool :=
  decide ((hi a).toNat * y.toNat / 2 ^ 64 ≠ 0) ||
    decide (2 ^ 64 ≤ (lo a).toNat * y.toNat / 2 ^ 64 + (hi a).toNat * y.toNat % 2 ^ 64)

end Sys2Proof.Machine
end

