-- ==== Sys2Proof/Machine/CarryChain.lean ====
section
/-! DEFINITION. The carry-chain adder and subtractor, and ADD128, SUB128, INC128, DEC128 (41_carry_chain.md). The limbs are added
and subtracted one at a time, the carry or borrow passed from the low to the high limb, as R90 and R92 write it. -/

namespace Sys2Proof.Machine

/-- `c64`, the carry out of the low limb (R90). Internal: no port shows it (R97). -/
def carry64 (x y : W128) : Nat := ((lo x).toNat + (lo y).toNat) / 2 ^ 64

/-- `add128` (R90). -/
def add128 (x y : W128) : W128 :=
  let sLo := (lo x).toNat + (lo y).toNat
  let rLo := BitVec.ofNat 64 sLo
  let rHi := BitVec.ofNat 64 ((hi x).toNat + (hi y).toNat + carry64 x y)
  pair rHi rLo

/-- `b64`, the borrow out of the low limb (R92). Internal: no port shows it (R97). -/
def borrow64 (x y : W128) : W64 := if BitVec.ult (lo x) (lo y) then 1 else 0

/-- `sub128` (R92): the limb subtractions are modulo 2^64. -/
def sub128 (x y : W128) : W128 := pair (hi x - hi y - borrow64 x y) (lo x - lo y)

/-- ADD128 (R91): `R <- add128(A, B); S <- 0; ILL <- 0`. -/
def execAdd128 (a b : W128) (s : State) : Host.Outcome State Fault Refusal :=
  .next (complete (respondPair (add128 a b)) s)

/-- SUB128 (R93): `R <- sub128(A, B); S <- 0; ILL <- 0`. -/
def execSub128 (a b : W128) (s : State) : Host.Outcome State Fault Refusal :=
  .next (complete (respondPair (sub128 a b)) s)

/-- INC128 (R94): `R <- add128(A, pair(0, 1)); S <- 0; ILL <- 0`. -/
def execInc128 (a : W128) (s : State) : Host.Outcome State Fault Refusal :=
  .next (complete (respondPair (add128 a (pair 0 1))) s)

/-- DEC128 (R95): `R <- sub128(A, pair(0, 1)); S <- 0; ILL <- 0`. -/
def execDec128 (a : W128) (s : State) : Host.Outcome State Fault Refusal :=
  .next (complete (respondPair (sub128 a (pair 0 1))) s)

end Sys2Proof.Machine
end

