-- ==== Sys2Proof/Machine/FloatFormat.lean ====
section
/-! DEFINITION. The floating-point formats and their arithmetic (00_scope.md R13): layout, the value of a pattern, rounding to
nearest with ties to even, and the binary64 square root of the default seed (44_root_extraction.md R128). Everything is exact
natural-number arithmetic, narrowed once at the end. The layout and the rounding are the spec's passages from general knowledge
(93_implementation_defined.md G1, G2, G4): UNVERIFIED, log entry 12: unsafe. -/

namespace Sys2Proof.Machine

/-- A binary interchange format (R13). -/
structure FpFormat where
  /-- bits of the biased exponent -/
  expBits : Nat
  /-- bits of the fraction -/
  fracBits : Nat
  bias : Nat
  deriving DecidableEq, Repr

/-- binary64: sign bit 63, exponent bits 62:52, bias 1023, fraction bits 51:0 (R13). -/
def binary64 : FpFormat := ⟨11, 52, 1023⟩

/-- binary32: sign bit 31, exponent bits 30:23, bias 127, fraction bits 22:0 (R13). -/
def binary32 : FpFormat := ⟨8, 23, 127⟩

/-- What a pattern stands for (R13). -/
inductive FpValue where
  | nan
  | infinity (negative : Bool)
  /-- The real number `significand * 2^exponent / unit`, `unit` being the format's; negated when `negative`. -/
  | finite (negative : Bool) (significand exponent : Nat)
  deriving DecidableEq, Repr

/-- The sign bit of a pattern. -/
def FpFormat.signOf (f : FpFormat) (p : Nat) : Bool := p / 2 ^ (f.expBits + f.fracBits) % 2 == 1

/-- The biased exponent field of a pattern. -/
def FpFormat.exponentOf (f : FpFormat) (p : Nat) : Nat := p / 2 ^ f.fracBits % 2 ^ f.expBits

/-- The fraction field of a pattern. -/
def FpFormat.fractionOf (f : FpFormat) (p : Nat) : Nat := p % 2 ^ f.fracBits

/-- The denominator of every finite value: a value is a whole number of `1 / unit`. -/
def FpFormat.unit (f : FpFormat) : Nat := 2 ^ (f.bias + f.fracBits)

/-- The pattern of +infinity, which is also the first pattern above the largest finite one. -/
def FpFormat.infinity (f : FpFormat) : Nat := (2 ^ f.expBits - 1) * 2 ^ f.fracBits

/-- What a pattern stands for (R13): an all-ones exponent is infinity or a NaN, a zero exponent is zero or subnormal, any other
is `2^(exp - bias) * (1 + fraction / 2^fracBits)`. -/
def FpFormat.unpack (f : FpFormat) (p : Nat) : FpValue :=
  let e := f.exponentOf p
  let frac := f.fractionOf p
  if e = 2 ^ f.expBits - 1 then
    if frac = 0 then .infinity (f.signOf p) else .nan
  else if e = 0 then .finite (f.signOf p) frac 1
  else .finite (f.signOf p) (2 ^ f.fracBits + frac) e

/-- `n / d` rounded to nearest, ties to even. -/
def roundDiv (n d : Nat) : Nat :=
  if d < 2 * (n % d) ∨ (2 * (n % d) = d ∧ n / d % 2 = 1) then n / d + 1 else n / d

/-- The pattern nearest to the non-negative real `m * 2^k / unit`, ties to even; +infinity when the rounded magnitude exceeds
the largest finite value (R13). A carry out of the rounded significand moves into the exponent field by itself. -/
def FpFormat.round (f : FpFormat) (m k : Nat) : Nat :=
  if m = 0 then 0
  else
    let e := max 1 (Nat.log2 m + k - f.fracBits)
    let sig := if e ≤ k then m * 2 ^ (k - e) else roundDiv m (2 ^ (e - k))
    min ((e - 1) * 2 ^ f.fracBits + sig) f.infinity

/-- `rne_F64(n)`, `rne_F32(n)` (R13): the natural number `n` rounded to the format. -/
def FpFormat.rne (f : FpFormat) (n : Nat) : Nat := f.round n (f.bias + f.fracBits)

/-- `scale_fmt(p, k)` (45_conversion.md R146): times `2^k`, by adding `k` to the exponent field of a positive normal number;
+infinity when the field reaches all ones. -/
def FpFormat.scale (f : FpFormat) (p k : Nat) : Nat :=
  if 2 ^ f.expBits - 1 ≤ f.exponentOf p + k then f.infinity else p + k * 2 ^ f.fracBits

/-- The integer square root of `m`, digit by digit: `r` is extended by the bits below `2^bits`, the highest first. -/
def sqrtDigits (m : Nat) : (bits r : Nat) → Nat
  | 0, r => r
  | bits + 1, r =>
    if (r + 2 ^ bits) * (r + 2 ^ bits) ≤ m then sqrtDigits m bits (r + 2 ^ bits) else sqrtDigits m bits r

/-- `floor(sqrt(m))` for `m < 2^164`. -/
def floorSqrt (m : Nat) : Nat := sqrtDigits m 82 0

/-- The positive square root of `m * 2^e / unit` in binary64, correctly rounded. The radicand is scaled by an even power of two
so that the root has 55 bits or more, and a last bit records whether it was exact. -/
def sqrtRound (m e : Nat) : Nat :=
  let t := e + binary64.bias + binary64.fracBits
  let radicand := (if t % 2 = 0 then m else 2 * m) * 2 ^ 108
  let root := floorSqrt radicand
  let sticky := if root * root = radicand then 0 else 1
  binary64.round (2 * root + sticky) (t / 2 - 55)

/-- `fsqrt` (44_root_extraction.md R128): the binary64 square root, rounded to nearest, ties to even. The block takes it only of
positive finite numbers of at least 1; elsewhere it is as IEEE 754 has it. PRESUMED, log entry 16: safe, no command reaches it. -/
def fsqrt (p : W64) : W64 :=
  match binary64.unpack p.toNat with
  | .nan => 0x7FF8000000000000#64
  | .infinity negative => if negative then 0x7FF8000000000000#64 else p
  | .finite negative m e =>
    if m = 0 then p else if negative then 0x7FF8000000000000#64 else BitVec.ofNat 64 (sqrtRound m e)

/-- `f64_to_u64_sat` (44_root_extraction.md R129): truncation toward zero; 0 for a NaN and for anything not positive, all ones
from 2^64 up. -/
def f64ToU64Sat (p : W64) : W64 :=
  match binary64.unpack p.toNat with
  | .nan => 0
  | .infinity negative => if negative then 0 else 0xFFFFFFFFFFFFFFFF#64
  | .finite negative m e =>
    if negative then 0
    else if 2 ^ 64 * binary64.unit ≤ m * 2 ^ e then 0xFFFFFFFFFFFFFFFF#64
    else BitVec.ofNat 64 (m * 2 ^ e / binary64.unit)

end Sys2Proof.Machine
end

