-- ==== Sys2Proof/Machine/Convert.lean ====
section
/-! DEFINITION. The converters, U128_TO_F64, U128_TO_F32, F64_TO_U128 and F32_TO_U128 (45_conversion.md). -/

namespace Sys2Proof.Machine

/-- `u128_to_fp[fmt]` (R146): cast the low limb when the high limb is zero; else normalise, cast the top limb (the limb below it
is discarded) and scale back. -/
def u128ToFp (f : FpFormat) (x : W128) : Nat :=
  if hi x = 0 then f.rne (lo x).toNat
  else
    let shift := clz64 (hi x)
    let y := shl128 x shift
    f.scale (f.rne (hi y).toNat) (64 - shift)

/-- `u128_to_f64` (R147). -/
def u128ToF64 (x : W128) : W64 := BitVec.ofNat 64 (u128ToFp binary64 x)

/-- `u128_to_f32` (R148): cast, scaling and overflow all in binary32. -/
def u128ToF32 (x : W128) : W32 := BitVec.ofNat 32 (u128ToFp binary32 x)

/-- `fp_to_u128[fmt]` (R150), each step as written: reject a NaN, anything less than 1 (every negative number and zero among
them) and anything greater than 10^39; else `E = floor(log2 v)`, `l = trunc(v / 2^E)`, and `l` shifted left by `E`. The formula is
kept as the source gives it (90_conflicts.md C5); UNVERIFIED, log entry 13: unsafe. -/
def fpToU128 (f : FpFormat) (p : Nat) : W128 :=
  match f.unpack p with
  | .nan => pair 0 0
  | .infinity _ => pair 0 0
  | .finite negative m e =>
    let v := m * 2 ^ e
    if negative ∨ v < Config.F2I_MIN * f.unit then pair 0 0
    else if Config.F2I_MAX * f.unit < v then pair 0 0
    else
      let E := Nat.log2 (v / f.unit)
      let l := BitVec.ofNat 64 (v / (f.unit * 2 ^ E))
      shl128 (pair 0 l) E

/-- `f64_to_u128` (R151). -/
def f64ToU128 (p : W64) : W128 := fpToU128 binary64 p.toNat

/-- `f32_to_u128` (R152). -/
def f32ToU128 (p : W32) : W128 := fpToU128 binary32 p.toNat

/-- U128_TO_F64 (R147): `R <- pair(0, u128_to_fp[F64](A)); S <- 0; ILL <- 0`. -/
def execU128ToF64 (a : W128) (s : State) : Host.Outcome State Fault Refusal :=
  .next (complete (respondWord (u128ToF64 a)) s)

/-- U128_TO_F32 (R148): `R <- pair(0, zext_64(u128_to_fp[F32](A))); S <- 0; ILL <- 0`. -/
def execU128ToF32 (a : W128) (s : State) : Host.Outcome State Fault Refusal :=
  .next (complete (respondWord (zext64 (u128ToF32 a))) s)

/-- F64_TO_U128 (R151): `R <- fp_to_u128[F64](A.lo); S <- 0; ILL <- 0`. -/
def execF64ToU128 (p : W64) (s : State) : Host.Outcome State Fault Refusal :=
  .next (complete (respondPair (f64ToU128 p)) s)

/-- F32_TO_U128 (R152): `R <- fp_to_u128[F32](A.lo[31:0]); S <- 0; ILL <- 0`. -/
def execF32ToU128 (p : W32) (s : State) : Host.Outcome State Fault Refusal :=
  .next (complete (respondPair (f32ToU128 p)) s)

end Sys2Proof.Machine
end

