-- ==== Sys2Proof/Machine/Divide.lean ====
section
/-! DEFINITION. The long divider, DIV128TO64 and DIV128TO128 (43_division.md). The commands compute by the contract (R110, R118);
the hardware's internal digits (R113 to R116) are in LongDivision.lean. -/

namespace Sys2Proof.Machine

/-- `div128to64` (R110): quotient and remainder; the sentinel on both when the quotient does not fit, which includes a zero
divisor (R112). -/
def div128to64 (x : W128) (d : W64) : W64 × W64 :=
  if d ≤ hi x then (Config.SENTINEL64, Config.SENTINEL64)
  else (BitVec.ofNat 64 (val x / d.toNat), BitVec.ofNat 64 (val x % d.toNat))

/-- `div128to128` (R118): the high limb is divided first and its remainder goes with the low limb into `div128to64`. All ones
for a zero divisor (R120, D19): the spec's decision where the source is silent, UNVERIFIED, log entry 9: unsafe. -/
def div128to128 (x : W128) (d : W64) : W128 × W64 :=
  if d = 0 then (pair Config.SENTINEL64 Config.SENTINEL64, Config.SENTINEL64)
  else
    let qHi := hi x / d
    let h := hi x % d
    let low := div128to64 (pair h (lo x)) d
    (pair qHi low.1, low.2)

/-- DIV128TO64 (R111): `(q, rem) = div128to64(A, B.lo); R <- pair(0, q); S <- rem; ILL <- 0`. -/
def execDiv128to64 (a : W128) (d : W64) (s : State) : Host.Outcome State Fault Refusal :=
  .next (complete (respondDivision (pair 0 (div128to64 a d).1) (div128to64 a d).2) s)

/-- DIV128TO128 (R119): `(Q, rem) = div128to128(A, B.lo); R <- Q; S <- rem; ILL <- 0`. -/
def execDiv128to128 (a : W128) (d : W64) (s : State) : Host.Outcome State Fault Refusal :=
  .next (complete (respondDivision (div128to128 a d).1 (div128to128 a d).2) s)

end Sys2Proof.Machine
end

