-- ==== Sys2Proof/Machine/Multiply.lean ====
section
/-! DEFINITION. The widening multiplier, MUL64W and MUL128X64 (42_widening_multiply.md). -/

namespace Sys2Proof.Machine

/-- `mul64w` (R100): the exact product of two words, as a pair. -/
def mul64w (a b : W64) : W128 :=
  pair (BitVec.ofNat 64 (a.toNat * b.toNat / 2 ^ 64)) (BitVec.ofNat 64 (a.toNat * b.toNat))

/-- `mul128x64` (R102): the low limb's full product, and the low 64 bits of the high limb's added to its high half. -/
def mul128x64 (x : W128) (y : W64) : W128 :=
  let p := mul64w (lo x) y
  let h := hi x * y
  pair (hi p + h) (lo p)

/-- MUL64W (R101): `R <- mul64w(A.lo, B.lo); S <- 0; ILL <- 0`. -/
def execMul64w (a b : W64) (s : State) : Host.Outcome State Fault Refusal :=
  .next (complete (respondPair (mul64w a b)) s)

/-- MUL128X64 (R102): `R <- mul128x64(A, B.lo); S <- 0; ILL <- 0`. -/
def execMul128x64 (a : W128) (y : W64) (s : State) : Host.Outcome State Fault Refusal :=
  .next (complete (respondPair (mul128x64 a y)) s)

end Sys2Proof.Machine
end

