-- ==== Sys2Proof/Machine/Roots.lean ====
section
/-! DEFINITION. The Newton-Raphson units, SQRT_ITER, ISQRT, CBRT_ITER and ICBRT (44_root_extraction.md). The step formulas and the
fixed counts define the results; the source's claim that they are always the floor does not hold (90_conflicts.md C1). -/

namespace Sys2Proof.Machine

/-- `sqrt_step` (R125): divide, add at 128 bits, halve, keep the low 64 bits (D22; UNVERIFIED, log entry
15: unsafe). -/
def sqrtStep (x : W128) (r : W64) : W64 :=
  let q := (div128to128 x r).1
  let t := add128 (pair 0 r) q
  lo (shr128 t 1)

/-- `cbrt_step` (R132): divide twice, add at 128 bits, halve, keep the low 64 bits. -/
def cbrtStep (x : W128) (r : W64) : W64 :=
  let q1 := (div128to128 x r).1
  let q2 := (div128to128 q1 r).1
  let t := add128 (pair 0 r) q2
  lo (shr128 t 1)

/-- `repeat n times`: always `n`, no early exit (R127, R135, R138). -/
def repeatStep (step : W64 → W64) : Nat → W64 → W64
  | 0, r => r
  | n + 1, r => repeatStep step n (step r)

/-- `SEED_SQRT` at the spec's default (R128): a configuration function there, the default here. DESIGN CHOICE, log entry 7:
unsafe, a block built with another seed differs on some radicands. -/
def seedSqrt (x : W128) : W64 := f64ToU64Sat (fsqrt (u128ToF64 x))

/-- `SEED_CBRT` (R134): from the open cube-root estimate `FCBRT`. -/
def seedCbrt (x : W128) : W64 := f64ToU64Sat (Config.FCBRT (u128ToF64 x))

/-- The refinement of R127 from a given seed. -/
def isqrtFrom (x : W128) (seed : W64) : W64 := repeatStep (sqrtStep x) Config.SQRT_ITERS seed

/-- The refinement of R135 from a given seed. -/
def icbrtFrom (x : W128) (seed : W64) : W64 := repeatStep (cbrtStep x) Config.CBRT_ITERS seed

/-- `isqrt` (R127): 0 for 0, else the seed and 8 steps. No range check is made, so a radicand at or above the
ceiling takes the same way (R130; UNVERIFIED, log entry 14: unsafe). -/
def isqrt (x : W128) : W64 := if x = pair 0 0 then 0 else isqrtFrom x (seedSqrt x)

/-- `icbrt` (R135): 0 for 0 (D26; UNVERIFIED, log entry 15: unsafe), else the seed and 47 steps. -/
def icbrt (x : W128) : W64 := if x = pair 0 0 then 0 else icbrtFrom x (seedCbrt x)

/-- SQRT_ITER (R126): `R <- pair(0, sqrt_step(A, B.lo)); S <- 0; ILL <- 0`. -/
def execSqrtIter (a : W128) (r : W64) (s : State) : Host.Outcome State Fault Refusal :=
  .next (complete (respondWord (sqrtStep a r)) s)

/-- ISQRT (R127): `R <- pair(0, isqrt(A)); S <- 0; ILL <- 0`. -/
def execIsqrt (a : W128) (s : State) : Host.Outcome State Fault Refusal :=
  .next (complete (respondWord (isqrt a)) s)

/-- CBRT_ITER (R133): `R <- pair(0, cbrt_step(A, B.lo)); S <- 0; ILL <- 0`. -/
def execCbrtIter (a : W128) (r : W64) (s : State) : Host.Outcome State Fault Refusal :=
  .next (complete (respondWord (cbrtStep a r)) s)

/-- ICBRT (R135): `R <- pair(0, icbrt(A)); S <- 0; ILL <- 0`. -/
def execIcbrt (a : W128) (s : State) : Host.Outcome State Fault Refusal :=
  .next (complete (respondWord (icbrt a)) s)

end Sys2Proof.Machine
end

