-- ==== Sys2Proof/Machine/Dispatch.lean ====
section
/-! DEFINITION. One arm per command (30_encoding.md R57): what the completion of each does. -/

namespace Sys2Proof.Machine

def exec (i : Instr) (s : State) : Host.Outcome State Fault Refusal :=
  match i with
  | .add128 a b => Sys2Proof.Machine.execAdd128 a b s
  | .sub128 a b => Sys2Proof.Machine.execSub128 a b s
  | .inc128 a => Sys2Proof.Machine.execInc128 a s
  | .dec128 a => Sys2Proof.Machine.execDec128 a s
  | .mul64w a b => Sys2Proof.Machine.execMul64w a b s
  | .mul128x64 a y => Sys2Proof.Machine.execMul128x64 a y s
  | .div128to64 a d => Sys2Proof.Machine.execDiv128to64 a d s
  | .div128to128 a d => Sys2Proof.Machine.execDiv128to128 a d s
  | .sqrtIter a r => Sys2Proof.Machine.execSqrtIter a r s
  | .isqrt a => Sys2Proof.Machine.execIsqrt a s
  | .cbrtIter a r => Sys2Proof.Machine.execCbrtIter a r s
  | .icbrt a => Sys2Proof.Machine.execIcbrt a s
  | .u128ToF64 a => Sys2Proof.Machine.execU128ToF64 a s
  | .u128ToF32 a => Sys2Proof.Machine.execU128ToF32 a s
  | .f64ToU128 p => Sys2Proof.Machine.execF64ToU128 p s
  | .f32ToU128 p => Sys2Proof.Machine.execF32ToU128 p s

end Sys2Proof.Machine
end

