-- ==== Sys2Proof/Machine/ClockEdge.lean ====
section
/-! DEFINITION. One rising edge of `clk` (10_state.md R31 to R33, 70_reset_and_hazards.md R190, R192): reset, acceptance, waiting,
completion. -/

namespace Sys2Proof.Machine

/-- The completion of a reserved op code (30_encoding.md R56, 60_exceptions.md R172): like any other, with its own response; and
the run is marked (90_conflicts.md C12). -/
def completeReserved (s : State) : State := { complete respondReserved s with outsideGuarantee := true }

/-- The completion of a command (10_state.md R33): `(R, S, ILL) <- exec(OP, A, B)`, decoding first (60_exceptions.md R174). -/
def runCommand (c : Command) (s : State) : Host.Outcome State Fault Refusal :=
  match decode c with
  | .ok i => exec i s
  | .error _ => .next (completeReserved s)

/-- One rising edge. Reset overrides everything (60_exceptions.md R174, 70_reset_and_hazards.md R190, R192); a ready lane takes a
presented command (10_state.md R32); a busy lane takes none and goes on with the one in flight, which completes at its last edge
(R33). -/
def clockEdge (s : State) : Host.Outcome State Fault Refusal :=
  if s.portsNow.rst then .next (resetLane (nextEdge s))
  else
    match s.inFlight with
    | none => .next (if s.portsNow.cmdValid then accept s.portsNow.cmd (nextEdge s) else nextEdge s)
    | some f => if f.remaining ≤ 1 then runCommand f.cmd (nextEdge s) else .next (countDown f (nextEdge s))

end Sys2Proof.Machine
end

