-- ==== Sys2Proof/Machine/Step.lean ====
section
/-! DEFINITION. The step of a lane: one rising edge of its clock. DESIGN CHOICE, log entry 1: safe; the spec's level is one step
per command (10_state.md R20, 70_reset_and_hazards.md R202), and each completion edge is that step. -/

namespace Sys2Proof.Machine

/-- One step of the machine: one rising edge of `clk`. -/
def step (s : State) : Host.Outcome State Fault Refusal := clockEdge s

/-- `s` with the given command word latched and due to complete at the very next edge (log entry 3). -/
def State.withFetchWord (s : State) (nbits w : Nat) : State := placeCommand (tableCommand nbits w) s

end Sys2Proof.Machine
end

