-- ==== Sys2Proof/Machine/Respond.lean ====
section
/-! DEFINITION. The spec's pure function from a command to its response (30_encoding.md R57), transcribed as the spec writes it,
on the op code and the operand pairs. The machine does not run it: it decodes and dispatches; the two are stated equal as an
obligation. A run's observation is the list of these responses (70_reset_and_hazards.md R203). -/

namespace Sys2Proof.Machine

/-- `exec(op, A, B)` of R57, as a response triple. -/
def respond (c : Command) : Response :=
  let a := operandA c
  let b := operandB c
  match c.op with
  | 0x00#8 => ⟨add128 a b, 0, 0⟩
  | 0x01#8 => ⟨sub128 a b, 0, 0⟩
  | 0x02#8 => ⟨add128 a (pair 0 1), 0, 0⟩
  | 0x03#8 => ⟨sub128 a (pair 0 1), 0, 0⟩
  | 0x10#8 => ⟨mul64w (lo a) (lo b), 0, 0⟩
  | 0x11#8 => ⟨mul128x64 a (lo b), 0, 0⟩
  | 0x20#8 => ⟨pair 0 (div128to64 a (lo b)).1, (div128to64 a (lo b)).2, 0⟩
  | 0x21#8 => ⟨(div128to128 a (lo b)).1, (div128to128 a (lo b)).2, 0⟩
  | 0x30#8 => ⟨pair 0 (sqrtStep a (lo b)), 0, 0⟩
  | 0x31#8 => ⟨pair 0 (isqrt a), 0, 0⟩
  | 0x32#8 => ⟨pair 0 (cbrtStep a (lo b)), 0, 0⟩
  | 0x33#8 => ⟨pair 0 (icbrt a), 0, 0⟩
  | 0x40#8 => ⟨pair 0 (u128ToF64 a), 0, 0⟩
  | 0x41#8 => ⟨pair 0 (zext64 (u128ToF32 a)), 0, 0⟩
  | 0x42#8 => ⟨f64ToU128 (lo a), 0, 0⟩
  | 0x43#8 => ⟨f32ToU128 ((lo a).extractLsb' 0 32), 0, 0⟩
  | _ => ⟨pair Config.SENTINEL64 Config.SENTINEL64, Config.SENTINEL64, 1⟩

/-- The observation of a run: the responses in order (R203). -/
def runResponses (cs : List Command) : List Response := cs.map respond

/-- What a host does that presents each command once the previous one has completed (R203): one edge with the command, then as
many idle edges as it takes. -/
def hostSchedule : List Command → List Ports
  | [] => []
  | c :: cs => Ports.present c :: (List.replicate (latency c) Ports.idle ++ hostSchedule cs)

end Sys2Proof.Machine
end

