-- ==== Sys2Proof/Machine/HostRun.lean ====
section
/-! DEFINITION. A run as its host sees it (70_reset_and_hazards.md R203, R204): the host drives the ports edge by edge and keeps
what it presented and what came back. A host may leave any gap between commands and may choose a command from the responses so
far (30_encoding.md R60). The lane itself remembers none of this, so it
stands beside `State` (DESIGN CHOICE, log entry 20: safe); a host that needs no look at the responses is a schedule in
`State.host` (Respond.lean). -/

namespace Sys2Proof.Machine

/-- The lane and what the host has seen since the last reset. -/
structure Observed where
  lane : State
  /-- the commands the lane has accepted since the last reset, the first one first -/
  accepted : List Command
  /-- the observation (R203): the responses read at the `rsp_valid` pulses since the last reset, the first one first -/
  responses : List Response
  deriving DecidableEq, Repr

/-- A host that has seen nothing yet. -/
def Observed.start (s : State) : Observed := ⟨s, [], []⟩

/-- How often `rsp_valid` has pulsed since the last reset (R203). -/
def Observed.pulses (o : Observed) : Nat := o.responses.length

/-- What the host knows of `R`, `S` and `ILL` if it takes them to hold "no value" after reset until the first completion, the
conservative reading of 10_state.md R35 (93_implementation_defined.md U14). The lane itself holds zeros then (R34; `State.reset`,
`resetLane`; log entry 11). -/
def Observed.known (o : Observed) : Option Response := o.responses.getLast?

/-- The ports hold `p` at the coming edge, and the host is not said to do anything after it. -/
def drive (p : Ports) (s : State) : State := { s with host := [p] }

/-- A command is accepted at an edge with these port values (10_state.md R32). -/
def accepts (p : Ports) (s : State) : Bool := !p.rst && p.cmdValid && s.cmdReady == 1#1

/-- What the host notes at an edge with port values `p` that took the lane to `t`: a run begins anew at a reset (R203). -/
def Observed.record (o : Observed) (p : Ports) (t : State) : Observed where
  lane := t
  accepted := if p.rst then [] else if accepts p o.lane then o.accepted ++ [p.cmd] else o.accepted
  responses := if p.rst then [] else if t.rspValid then o.responses ++ [t.response] else o.responses

/-- One edge with the port values the host chose. -/
def Observed.edge (o : Observed) (p : Ports) : Host.Outcome Observed Fault Refusal :=
  match step (drive p o.lane) with
  | .next t => .next (o.record p t)
  | .fault r => .fault r
  | .refused r => .refused r

/-- One edge after the other. -/
def Observed.edges (o : Observed) : List Ports → Host.Outcome Observed Fault Refusal
  | [] => .next o
  | p :: ps =>
    match o.edge p with
    | .next o' => o'.edges ps
    | .fault r => .fault r
    | .refused r => .refused r

/-- A host script (30_encoding.md R60, R203): from the responses so far, how many edges to let pass and which command to present
then; or the end of the run. -/
abbrev Script := List Response → Option (Nat × Command)

/-- The port values of one turn of a script: the gap, the command, and the wait until it has completed (R203). -/
def turnPorts (gap : Nat) (c : Command) : List Ports :=
  List.replicate gap Ports.idle ++ Ports.present c :: List.replicate (latency c) Ports.idle

/-- A script played for at most `n` commands. -/
def Observed.play (script : Script) : Nat → Observed → Host.Outcome Observed Fault Refusal
  | 0, o => .next o
  | n + 1, o =>
    match script o.responses with
    | none => .next o
    | some (gap, c) =>
      match o.edges (turnPorts gap c) with
      | .next o' => Observed.play script n o'
      | .fault r => .fault r
      | .refused r => .refused r

/-- A run (R203): one reset of a lane in any state, then a script of at most `n` commands. -/
def runScript (script : Script) (n : Nat) (s : State) : Host.Outcome Observed Fault Refusal :=
  match (Observed.start s).edge Ports.reset with
  | .next o => o.play script n
  | .fault r => .fault r
  | .refused r => .refused r

/-- The responses of a script by `exec` alone, following those in `rs` (R203): each command is chosen from the responses before
it. -/
def scriptResponses (script : Script) : Nat → List Response → List Response
  | 0, rs => rs
  | n + 1, rs =>
    match script rs with
    | none => rs
    | some (_, c) => scriptResponses script n (rs ++ [respond c])

end Sys2Proof.Machine
end

