-- ==== Sys2Proof/Machine/Lanes.lean ====
section
/-! DEFINITION. Several lanes (20_memory.md R45, 60_exceptions.md R178): each a complete copy with its own ports and state, sharing
nothing. `N_LANES` is the length of the list (00_scope.md R8, D35; DESIGN CHOICE, log
entry 18: safe). A lane has no identity of its own (R178): the index is the
host's. -/

namespace Sys2Proof.Machine

/-- The lanes of a system. -/
abbrev Block := List State

/-- All lanes leave reset together, in the same state (R178). -/
def Block.reset (nLanes : Nat) : Block := List.replicate nLanes State.reset

/-- The outcome of a step of one lane, put back into its place among the others. -/
def putLane (k : Nat) (b : Block) : Host.Outcome State Fault Refusal → Host.Outcome Block Fault Refusal
  | .next t => .next (b.set k t)
  | .fault r => .fault r
  | .refused r => .refused r

/-- Lane `k` takes an edge of its own clock; the others stand still. Where there is no lane `k`, nothing moves. -/
def stepLane (k : Nat) (b : Block) : Host.Outcome Block Fault Refusal :=
  match b[k]? with
  | none => .next b
  | some s => putLane k b (step s)

/-- One edge of a clock that all lanes share (D35): every lane takes its own step. -/
def stepAll : Block → Host.Outcome Block Fault Refusal
  | [] => .next []
  | s :: b =>
    match step s, stepAll b with
    | .next t, .next u => .next (t :: u)
    | .fault r, _ => .fault r
    | .refused r, _ => .refused r
    | .next _, .fault r => .fault r
    | .next _, .refused r => .refused r

end Sys2Proof.Machine
end

