-- ==== Sys2Proof/Machine/LongDivision.lean ====
section
/-! DEFINITION. The divider's internal algorithm (43_division.md R113 to R116): normalise, split into half-words, two quotient
digits in base 2^32 by estimate and correct, assemble and un-normalise. The formulas of R115 are the spec's own (D21;
UNVERIFIED, log entry 19: safe); the result
is the contract's (R110, R117), which the commands compute by, so no command depends on this file. -/

namespace Sys2Proof.Machine

/-- The correction loop of R115, at most `fuel` times round: while the estimate is seen to be too large it is lowered by one, and
the loop ends once the partial remainder no longer fits a half-word. -/
def correctDigit (vn1 vn0 next32 : Nat) : (fuel q rhat : Nat) → Nat
  | 0, q, _ => q
  | fuel + 1, q, rhat =>
    if Config.DIV_BASE ≤ q ∨ rhat * Config.DIV_BASE + next32 < q * vn0 then
      if rhat + vn1 < Config.DIV_BASE then correctDigit vn1 vn0 next32 fuel (q - 1) (rhat + vn1)
      else q - 1
    else q

/-- The estimate of a quotient digit, from the top half-word of the divisor (R115). -/
def digitEstimate (v n64 : W64) : Nat := n64.toNat / (v.toNat / Config.DIV_BASE)

/-- `digit` (R115): one quotient digit and the partial remainder, which is taken modulo 2^64. -/
def quotientDigit (v : W64) (n64 : W64) (next32 : Nat) : Nat × W64 :=
  let vn1 := v.toNat / Config.DIV_BASE
  let vn0 := v.toNat % Config.DIV_BASE
  let q := correctDigit vn1 vn0 next32 Config.DIV_MAX_OVERSHOOT (digitEstimate v n64) (n64.toNat % vn1)
  (q, BitVec.ofNat 64 (n64.toNat * Config.DIV_BASE + next32) - BitVec.ofNat 64 (q * v.toNat))

/-- Steps 1 to 4 (R113 to R116), for a dividend whose high limb is below the divisor. -/
def longDivide (x : W128) (d : W64) : W64 × W64 :=
  let shift := clz64 d
  let v := d <<< shift
  let un32 := if shift = 0 then hi x else (hi x <<< shift) ||| (lo x >>> (64 - shift))
  let un10 := lo x <<< shift
  let first := quotientDigit v un32 (un10.toNat / Config.DIV_BASE)
  let second := quotientDigit v first.2 (un10.toNat % Config.DIV_BASE)
  (BitVec.ofNat 64 (first.1 * Config.DIV_BASE + second.1), second.2 >>> shift)

end Sys2Proof.Machine
end

