-- ==== Sys2Proof/Safety.lean ====
section
/-! DEFINITION. What a run may rely on: the invariant every step keeps, and the duties of the host
(70_reset_and_hazards.md R195 to R201), which the hardware does not check. -/

namespace Sys2Proof.Machine

/-- What holds of a lane in every reachable state. `ILL` is set only by the response to a reserved op code, which has all bits set
(30_encoding.md R56) and marks the run; a secondary result of all ones comes only with an all-ones low limb, the sentinel on both
outputs (43_division.md R112, 70_reset_and_hazards.md R196); `rsp_valid` is driven only by a lane that is ready (10_state.md R33);
a command in flight has at least one edge to go (`LAT` is at least 1). -/
def State.Inv (s : State) : Prop :=
  (s.ILL = 1#1 → s.R = pair Config.SENTINEL64 Config.SENTINEL64 ∧ s.S = Config.SENTINEL64 ∧ s.outsideGuarantee = true) ∧
  (s.S = Config.SENTINEL64 → lo s.R = Config.SENTINEL64) ∧
  (s.rspValid = true → s.inFlight = none) ∧
  (∀ f ∈ s.inFlight, 1 ≤ f.remaining)

/-- The host's duties for a command whose result it relies on: a legal op code (R201), `A.hi < B.lo` for DIV128TO64 and
`B.lo != 0` for DIV128TO128 (R195), a radicand below 2^124 for ISQRT (R197). -/
def Command.dutyHolds (c : Command) : Bool :=
  !reservedOp c.op &&
    (if c.op = 0x20#8 then BitVec.ult c.aHi c.bLo
     else if c.op = 0x21#8 then c.bLo != 0
     else if c.op = 0x31#8 then decide (val (operandA c) < Config.SQRT_CEILING)
     else true)

end Sys2Proof.Machine
end

