-- ==== Sys2Proof/Certificates/Slice0/Obligations.lean ====
section
/-! DEFINITION. The statements for the provers, each formalising rules of spec/. The next state of a legal command is written out
field by field (`afterLegal`), so a statement of a result is at once a statement that the command completes and a statement of
its frame: every field not named is unchanged. -/

namespace Sys2Proof.Claims

open Sys2Proof Sys2Proof.Machine

/-- The state after a legal command completes with `R = r` and `S = m` (10_state.md R33, 30_encoding.md R58): `ILL` and `BUSY` are 0,
`rsp_valid` is 1, and nothing else changes. -/
def afterLegal (s : State) (r : W128) (m : W64) : State :=
  { s with R := r, S := m, ILL := 0#1, inFlight := none, rspValid := true }

/-- The state after a reserved op code completes (30_encoding.md R56): all ones, `ILL = 1`, and the run is marked. -/
def afterReserved (s : State) : State :=
  { s with
    R := 0xFFFFFFFFFFFFFFFFFFFFFFFFFFFFFFFF#128, S := 0xFFFFFFFFFFFFFFFF#64, ILL := 1#1, inFlight := none, rspValid := true,
    outsideGuarantee := true }

/-- The state after an edge with `rst = 1` (70_reset_and_hazards.md R190), given what the host does later and the model's own mark
(log entry 10), of which R190 does not speak. -/
def afterReset (later : List Ports) (mark : Bool) : State :=
  { R := 0#128, S := 0#64, ILL := 0#1, inFlight := none, rspValid := false, host := later, outsideGuarantee := mark }

/-- The state in which the coming edge has passed and nothing else has happened: its port values used up, `rsp_valid` low. -/
def edgePassed (s : State) : State := { s with host := s.host.tail, rspValid := false }

/-- `s` with the given in-flight command. -/
def withInFlight (s : State) (f : InFlight) : State := { s with inFlight := some f }

/-- The number a Newton square-root step gives (44_root_extraction.md R125), on natural numbers: the division by zero gives all
ones, the sum wraps at 128 bits, the low 64 bits of its half are kept. -/
def sqrtStepNat (x r : Nat) : Nat :=
  if r = 0 then 2 ^ 64 - 1 else (r + x / r) % 2 ^ 128 / 2 % 2 ^ 64

/-- The number a Newton cube-root step gives (R132), on natural numbers. -/
def cbrtStepNat (x r : Nat) : Nat :=
  if r = 0 then 2 ^ 64 - 1 else (r + x / r / r) % 2 ^ 128 / 2 % 2 ^ 64

/-- How many low bits of `x` the integer-to-floating-point converters drop before they round (45_conversion.md R146):
`64 - clz64(x.hi)`, which is none when the high limb is zero. -/
def droppedBits (x : Nat) : Nat := if x < 2 ^ 64 then 0 else Nat.log2 x - 63

/-- The number the converters represent (R146): the low bits dropped, the rest rounded to `prec` significant bits, to nearest with
ties to even, and scaled back. -/
def convertedValue (prec x : Nat) : Nat :=
  let k := droppedBits x
  let m := x / 2 ^ k
  let j := Nat.log2 m + 1 - prec
  roundDiv m (2 ^ j) * 2 ^ (j + k)

/-- The number the floating-point-to-integer converters give (45_conversion.md R153): the largest power of two not above the
value, and 0 for a NaN, a value below 1, or one of 2^128 or more. -/
def convertedInteger (f : FpFormat) (p : Nat) : Nat :=
  match f.unpack p with
  | .nan => 0
  | .infinity _ => 0
  | .finite negative m e =>
    if negative ∨ m * 2 ^ e < f.unit ∨ 2 ^ 128 * f.unit ≤ m * 2 ^ e then 0 else 2 ^ Nat.log2 (m * 2 ^ e / f.unit)

end Sys2Proof.Claims

open Sys2Proof Sys2Proof.Machine Sys2Proof.Claims

/-! ## Reset, ports and the clock edge -/

/-- R34: the values after reset, and what the ports show then. -/
def Obligations.ResetLeavesEveryRegisterZero : Prop :=
  State.reset.R = 0#128 ∧ State.reset.S = 0#64 ∧ State.reset.ILL = 0#1 ∧ State.reset.BUSY = 0#1 ∧
    State.reset.outputs = ⟨1#1, 0#1, 0#64, 0#64, 0#64, 0#1⟩

/-- R190: an edge with `rst = 1` zeroes the lane and accepts nothing, whatever the lane held, so one edge is enough and more change
nothing more; only reset or a completion changes the response registers, and only these or an acceptance change `BUSY`. -/
def Obligations.ResetEdgeClearsTheLane : Prop :=
  (∀ s : State, s.portsNow.rst = true → ∃ mark, step s = .next (afterReset s.host.tail mark)) ∧
  (∀ s t : State, step s = .next t → t.response ≠ s.response →
    s.portsNow.rst = true ∨ ∃ f, s.inFlight = some f ∧ f.remaining ≤ 1) ∧
  (∀ s t : State, step s = .next t → t.BUSY ≠ s.BUSY → s.portsNow.rst = true ∨
    (s.inFlight = none ∧ s.portsNow.cmdValid = true) ∨ ∃ f, s.inFlight = some f ∧ f.remaining ≤ 1)

/-- R192: a reset at any edge of a busy lane, the completing one included, discards the command: the registers take their reset
values and `rsp_valid` stays low, and so it stays at every later edge until a command is accepted. -/
def Obligations.ResetDiscardsTheCommandInFlight : Prop :=
  ∀ (s : State) (f : InFlight), s.inFlight = some f → s.portsNow.rst = true →
    (∃ mark, step s = .next (afterReset s.host.tail mark)) ∧
    ∀ k : Nat, (∀ p ∈ s.host.tail.take k, p.cmdValid = false) →
      ∃ u, Sys2Proof.core.run (k + 1) s = .next u ∧ u.response = ⟨0#128, 0#64, 0#1⟩ ∧ u.BUSY = 0#1 ∧ u.rspValid = false

/-- R32: a ready lane latches a presented command and becomes busy; a busy lane takes none, at its completing edge either. -/
def Obligations.ReadyLaneAcceptsAndBusyLaneDoesNot : Prop :=
  (∀ s : State, s.inFlight = none → s.portsNow.rst = false → s.portsNow.cmdValid = true →
    step s = .next (withInFlight (edgePassed s) ⟨s.portsNow.cmd, latency s.portsNow.cmd⟩)) ∧
  (∀ (s : State) (f : InFlight), s.inFlight = some f → s.portsNow.rst = false → 1 < f.remaining →
    step s = .next (withInFlight (edgePassed s) ⟨f.cmd, f.remaining - 1⟩)) ∧
  (∀ (s : State) (f : InFlight), s.inFlight = some f → s.portsNow.rst = false → f.remaining ≤ 1 →
    ∃ t, step s = .next t ∧ t.inFlight = none)

/-- A ready lane at whose edge nothing is presented holds its registers (R21 to R23, R32). -/
def Obligations.IdleLaneHoldsItsRegisters : Prop :=
  ∀ s : State, s.inFlight = none → s.portsNow.rst = false → s.portsNow.cmdValid = false → step s = .next (edgePassed s)

/-- The completing edge of a command that decodes to a well-formed instruction is `exec` of it, the edge having passed; and so is
the very next step after a command word is placed (R33, R57; log entries 1 and 3). -/
def Obligations.StepRunsTheDecodedInstruction : Prop :=
  (∀ (s : State) (f : InFlight) (i : Instr), s.portsNow.rst = false → s.inFlight = some f → f.remaining ≤ 1 →
    decode f.cmd = .ok i → i.wellFormed = true → step s = exec i (edgePassed s)) ∧
  (∀ (s : State) (nbits w : Nat) (i : Instr), decodeTableWord nbits w = some i →
    step (s.withFetchWord nbits w) = exec i (edgePassed (s.withFetchWord nbits w)))

/-- R56: every reserved op code, by the ranges the rule lists, completes with all ones and `ILL = 1`; the run is marked; nothing
else changes. -/
def Obligations.ReservedOpCodeCompletesAndMarksTheRun : Prop :=
  ∀ (s : State) (f : InFlight), s.portsNow.rst = false → s.inFlight = some f → f.remaining ≤ 1 →
    reservedOp f.cmd.op = true → step s = .next (afterReserved (edgePassed s))

/-- R33: an accepted command completes at exactly the `LAT`-th edge after acceptance, unless reset intervenes, whatever else is
presented meanwhile: until then the lane is busy and shows the previous response; at that edge the whole response appears,
`BUSY` falls, and `rsp_valid` is up for that one cycle. -/
def Obligations.AcceptedCommandCompletesAtItsLatency : Prop :=
  ∀ (s : State) (c : Command) (later : List Ports), s.inFlight = none → s.host = Ports.present c :: later →
    (∀ p ∈ later.take (latency c), p.rst = false) →
    (∀ k, 1 ≤ k → k ≤ latency c → ∃ t, Sys2Proof.core.run k s = .next t ∧
      t.response = s.response ∧ t.BUSY = 1#1 ∧ t.rspValid = false) ∧
    ∃ t, Sys2Proof.core.run (latency c + 1) s = .next t ∧ t.response = respond c ∧ t.BUSY = 0#1 ∧ t.rspValid = true ∧
      t.host = later.drop (latency c) ∧ ∀ u, step t = .next u → u.rspValid = false

/-- R203, of any host, one that chooses each command from the responses before it among them, with any gaps between commands (the
port values of a host are log entry 2's, how a command comes to run is log entry 3's).
First: whatever the ports hold after a reset edge, further resets among it, the responses seen at the `rsp_valid` pulses are those
of the accepted commands in order, but for one still in flight; and the registers hold the last of them, or the reset values where
the conservative reading of R35 knows no value.
Second: a script played for at most `n` commands ends ready, with as many pulses as commands and the responses `exec` gives.
Third: a fixed list of commands in the schedule of the lane ends ready with the response of the last one. -/
def Obligations.RunEndsWithTheLastResponse : Prop :=
  (∀ (s : State) (ps : List Ports), ∃ o, (Observed.start s).edges (Ports.reset :: ps) = .next o ∧
    o.accepted.map respond = o.responses ++ (o.lane.inFlight.toList.map fun f => respond f.cmd) ∧
    o.lane.response = o.known.getD ⟨0#128, 0#64, 0#1⟩) ∧
  (∀ (script : Script) (n : Nat) (s : State), ∃ o, runScript script n s = .next o ∧
    o.responses = scriptResponses script n [] ∧ o.responses = runResponses o.accepted ∧
    o.pulses = o.accepted.length ∧ o.lane.BUSY = 0#1 ∧
    o.lane.response = (runResponses o.accepted).getLastD ⟨0#128, 0#64, 0#1⟩) ∧
  (∀ cs : List Command, ∃ t,
    Sys2Proof.core.run (hostSchedule cs).length { State.reset with host := hostSchedule cs } = .next t ∧
      t.response = (runResponses cs).getLastD ⟨0#128, 0#64, 0#1⟩ ∧ t.BUSY = 0#1 ∧ t.host = [])

/-- R170: no state has a step that stops the machine. -/
def Obligations.EveryStepHasANextState : Prop :=
  ∀ s : State, ∃ t, step s = .next t

/-! ## Commands and their encoding -/

/-- R54, R56: exactly the op codes outside the reserved ranges decode, and a reserved one is named. -/
def Obligations.DecodingFailsExactlyOnReservedOpCodes : Prop :=
  ∀ c : Command,
    (reservedOp c.op = false → ∃ i, decode c = .ok i ∧ (encode i).op = c.op ∧ Format.ofOp c.op = some i.format) ∧
    (reservedOp c.op = true → decode c = .error (.reservedOpCode c.op))

/-- Decoding the encoding of an instruction gives it back, every operand at every value, as a command and as a 264-bit word. -/
def Obligations.DecodeOfEncodeIsTheInstruction : Prop :=
  ∀ i : Instr, i.wellFormed = true → decode (encode i) = .ok i ∧ decodeWord (encodeWord i) = .ok i

/-- Encoding what a word decodes to keeps exactly the op code and the bits its format reads, and zeroes the rest. -/
def Obligations.EncodeOfDecodeKeepsTheBitsRead : Prop :=
  ∀ (w : W264) (i : Instr), decodeWord w = .ok i → encodeWord i = w &&& i.format.readMask

/-- R55: words that agree in the op code and in the bits the format reads decode alike and complete alike, and the assembler's
word has zero in every other bit; under a reserved op code no operand bit counts (R56). -/
def Obligations.IgnoredBitsDoNotMatter : Prop :=
  (∀ (w w' : W264) (i : Instr), decodeWord w = .ok i → w &&& i.format.readMask = w' &&& i.format.readMask →
    decodeWord w' = .ok i ∧ ∀ s, runCommand (Command.ofWord w') s = runCommand (Command.ofWord w) s) ∧
  (∀ i : Instr, encodeWord i &&& ~~~i.format.readMask = 0) ∧
  (∀ c c' : Command, reservedOp c.op = true → c'.op = c.op → ∀ s, runCommand c' s = runCommand c s)

/-- Words written out from 30_encoding.md R51 and R54 decode to what they stand for. -/
def Obligations.WrittenOutWordsDecode : Prop :=
  decodeWord 0x000000000000000001000000000000000500000000000000030000000000000007#264 =
      .ok (.add128 0x00000000000000010000000000000005#128 0x00000000000000030000000000000007#128) ∧
  decodeWord 0x100000000000000009000000000000000500000000000000030000000000000007#264 = .ok (.mul64w 5#64 7#64) ∧
  decodeWord 0x200000000000000001000000000000000500000000000000030000000000000007#264 =
      .ok (.div128to64 0x00000000000000010000000000000005#128 7#64) ∧
  decodeWord 0x310000000000000001000000000000000500000000000000030000000000000007#264 =
      .ok (.isqrt 0x00000000000000010000000000000005#128) ∧
  decodeWord 0x420000000000000009000000000000000500000000000000030000000000000007#264 = .ok (.f64ToU128 5#64) ∧
  decodeWord 0x430000000000000001000000090000000500000000000000030000000000000007#264 = .ok (.f32ToU128 5#32) ∧
  decodeWord 0x040000000000000001000000000000000500000000000000030000000000000007#264 = .error (.reservedOpCode 0x04#8)

/-- R57: the completion of any command is the spec's `exec(op, A, B)`, written into the response registers; a reserved op code
also marks the run (R56). -/
def Obligations.CompletionIsTheSpecsExecFunction : Prop :=
  ∀ (c : Command) (s : State),
    runCommand c s = .next
      { s with
        R := (respond c).R, S := (respond c).S, ILL := (respond c).ILL, inFlight := none, rspValid := true,
        outsideGuarantee := s.outsideGuarantee || reservedOp c.op }

/-- R48: every one of the 2^264 command words has a response, and it depends on the command alone: two lanes given the same
command give the same response, whatever they held before. -/
def Obligations.ResponseDependsOnTheCommandAlone : Prop :=
  ∀ w : W264, ∃ r : Response, ∀ s : State, ∃ t, runCommand (Command.ofWord w) s = .next t ∧ t.response = r

/-- R58: a legal command writes all of `R`, `S` and `ILL`, the same whatever they held before: `ILL = 0`, `S = 0` unless it divides,
and zero above a word or binary32 result. -/
def Obligations.LegalCommandLeavesNoStaleBit : Prop :=
  ∀ i : Instr, ∃ r : Response, (∀ s : State, ∃ t, exec i s = .next t ∧ t.response = r) ∧ r.ILL = 0#1 ∧
    (i.unit ≠ .longDivider128by64 → r.S = 0#64) ∧
    ((∃ a d, i = .div128to64 a d) ∨ i.unit = .newtonRaphsonSqrtIter ∨ i.unit = .newtonRaphsonCbrtIter ∨
      i.unit = .intToFpConverter → hi r.R = 0#64) ∧
    (∀ a, i = .u128ToF32 a → r.R.toNat < 2 ^ 32)

/-- What a legal command leaves alone: the host's schedule and the mark; and it always leaves the lane ready, with `rsp_valid` up. -/
def Obligations.LegalCommandFrame : Prop :=
  ∀ (i : Instr) (s : State), ∃ r m, exec i s = .next (afterLegal s r m) ∧ ∀ s', exec i s' = .next (afterLegal s' r m)

/-- R172: completion sets `ILL` exactly on a reserved op code, so the next legal command clears it. -/
def Obligations.IllegalFlagIsSetExactlyOnReservedOpCodes : Prop :=
  ∀ (c : Command) (s : State), ∃ t, runCommand c s = .next t ∧ (t.ILL = 1#1 ↔ reservedOp c.op = true)

/-! ## The carry chain -/

/-- R90, R91: ADD128 decodes from op code 0x00, adds modulo 2^128, and the limb-wise datapath with its carry does so. -/
def Obligations.Add128AddsModulo2Pow128 : Prop :=
  (∀ c : Command, c.op = 0x00#8 → decode c = .ok (.add128 (pair c.aHi c.aLo) (pair c.bHi c.bLo))) ∧
  (∀ (a b : W128) (s : State), exec (.add128 a b) s = .next (afterLegal s (a + b) 0)) ∧
  (∀ a b : W128, add128 a b =
    pair (hi a + hi b + (if 2 ^ 64 ≤ (lo a).toNat + (lo b).toNat then 1#64 else 0#64)) (lo a + lo b))

/-- R92, R93: SUB128 decodes from op code 0x01, subtracts modulo 2^128, and the limb-wise datapath with its borrow does so. -/
def Obligations.Sub128SubtractsModulo2Pow128 : Prop :=
  (∀ c : Command, c.op = 0x01#8 → decode c = .ok (.sub128 (pair c.aHi c.aLo) (pair c.bHi c.bLo))) ∧
  (∀ (a b : W128) (s : State), exec (.sub128 a b) s = .next (afterLegal s (a - b) 0)) ∧
  (∀ a b : W128, sub128 a b =
    pair (hi a - hi b - (if (lo a).toNat < (lo b).toNat then 1#64 else 0#64)) (lo a - lo b))

/-- R94: INC128 decodes from op code 0x02 and adds one modulo 2^128. -/
def Obligations.Inc128AddsOne : Prop :=
  (∀ c : Command, c.op = 0x02#8 → decode c = .ok (.inc128 (pair c.aHi c.aLo))) ∧
  (∀ (a : W128) (s : State), exec (.inc128 a) s = .next (afterLegal s (a + 1) 0))

/-- R95: DEC128 decodes from op code 0x03 and subtracts one modulo 2^128. -/
def Obligations.Dec128SubtractsOne : Prop :=
  (∀ c : Command, c.op = 0x03#8 → decode c = .ok (.dec128 (pair c.aHi c.aLo))) ∧
  (∀ (a : W128) (s : State), exec (.dec128 a) s = .next (afterLegal s (a - 1) 0))

/-- R96: the integer laws of the adder and subtractor. -/
def Obligations.CarryChainLaws : Prop :=
  (∀ x y : W128, add128 x y = add128 y x) ∧
  (∀ x y z : W128, add128 (add128 x y) z = add128 x (add128 y z)) ∧
  (∀ x : W128, add128 x (pair 0 0) = x) ∧
  (∀ x y : W128, sub128 x y = add128 x (add128 (not128 y) (pair 0 1))) ∧
  (∀ x y : W128, sub128 (add128 x y) y = x ∧ add128 (sub128 x y) y = x)

/-- R97: the carry and the borrow out of bit 127, which no port shows, are found by the host's comparisons. -/
def Obligations.HostFindsCarryAndBorrow : Prop :=
  (∀ a b : W128, hostCarryOut (add128 a b) a = true ↔ 2 ^ 128 ≤ a.toNat + b.toNat) ∧
  (∀ a b : W128, hostBorrowOut a b = true ↔ a.toNat < b.toNat)

/-- R80: the source's identities, for every word `x` held as `pair(0, x)`. -/
def Obligations.SourceIdentitiesOfAWord : Prop :=
  ∀ x : W64, let v := pair 0 x
    add128 v v = mul128x64 v 2 ∧ sub128 v v = pair 0 0 ∧ shr128 (add128 v v) 1 = v ∧ shl128 v 1 = add128 v v

/-! ## The multiplier -/

/-- R100, R101: MUL64W decodes from op code 0x10, gives the exact product, and the product always fits. -/
def Obligations.Mul64wIsTheExactProduct : Prop :=
  (∀ c : Command, c.op = 0x10#8 → decode c = .ok (.mul64w c.aLo c.bLo)) ∧
  (∀ (a b : W64) (s : State), ∃ r : W128, exec (.mul64w a b) s = .next (afterLegal s r 0) ∧ r.toNat = a.toNat * b.toNat)

/-- R102: MUL128X64 decodes from op code 0x11 and gives the low 128 bits of the product. -/
def Obligations.Mul128x64IsTheProductModulo2Pow128 : Prop :=
  (∀ c : Command, c.op = 0x11#8 → decode c = .ok (.mul128x64 (pair c.aHi c.aLo) c.bLo)) ∧
  (∀ (a : W128) (y : W64) (s : State), ∃ r : W128,
    exec (.mul128x64 a y) s = .next (afterLegal s r 0) ∧ r.toNat = a.toNat * y.toNat % 2 ^ 128)

/-- R103: MUL128X64 wraps exactly when the host's test on its parts says so. -/
def Obligations.HostFindsMultiplyWrap : Prop :=
  ∀ (a : W128) (y : W64), hostMulWraps a y = true ↔ 2 ^ 128 ≤ a.toNat * y.toNat

/-! ## The divider -/

/-- R110 to R112: DIV128TO64 decodes from op code 0x20; it gives quotient and remainder when the quotient fits, and the sentinel
on both outputs otherwise, a zero divisor included. -/
def Obligations.Div128to64DividesOrGivesTheSentinel : Prop :=
  (∀ c : Command, c.op = 0x20#8 → decode c = .ok (.div128to64 (pair c.aHi c.aLo) c.bLo)) ∧
  (∀ (a : W128) (d : W64) (s : State), d.toNat ≤ (hi a).toNat →
    exec (.div128to64 a d) s = .next (afterLegal s 0x0000000000000000FFFFFFFFFFFFFFFF#128 0xFFFFFFFFFFFFFFFF#64)) ∧
  (∀ (a : W128) (d : W64) (s : State), (hi a).toNat < d.toNat → ∃ q m : W64,
    exec (.div128to64 a d) s = .next (afterLegal s (pair 0 q) m) ∧
      a.toNat = q.toNat * d.toNat + m.toNat ∧ m.toNat < d.toNat)

/-- R196: a secondary result of all ones comes exactly in the sentinel case; the quotient alone does not tell. -/
def Obligations.RemainderTellsTheSentinel : Prop :=
  (∀ (a : W128) (d : W64) (s : State), ∃ t, exec (.div128to64 a d) s = .next t ∧
    (t.S = 0xFFFFFFFFFFFFFFFF#64 ↔ d.toNat ≤ (hi a).toNat)) ∧
  (∀ (d : W64) (s : State), d ≠ 0 → ∃ t,
    exec (.div128to64 (pair (d - 1) 0xFFFFFFFFFFFFFFFF#64) d) s = .next t ∧
      t.R = 0x0000000000000000FFFFFFFFFFFFFFFF#128 ∧ t.S = d - 1)

/-- R118 to R121: DIV128TO128 decodes from op code 0x21; it gives the 128-bit quotient and the remainder, and all ones for a
zero divisor (the spec's decision where the source is silent, log entry 9). -/
def Obligations.Div128to128DividesOrGivesAllOnes : Prop :=
  (∀ c : Command, c.op = 0x21#8 → decode c = .ok (.div128to128 (pair c.aHi c.aLo) c.bLo)) ∧
  (∀ (a : W128) (s : State), exec (.div128to128 a 0) s =
    .next (afterLegal s 0xFFFFFFFFFFFFFFFFFFFFFFFFFFFFFFFF#128 0xFFFFFFFFFFFFFFFF#64)) ∧
  (∀ (a : W128) (d : W64) (s : State), d ≠ 0 → ∃ (q : W128) (m : W64),
    exec (.div128to128 a d) s = .next (afterLegal s q m) ∧ a.toNat = q.toNat * d.toNat + m.toNat ∧ m.toNat < d.toNat)

/-- R104, R122: multiplying the quotient back and adding the remainder gives the dividend, for every non-zero divisor, with the
block's own multiplier and adder. -/
def Obligations.DivisionIdentity : Prop :=
  ∀ (x : W128) (d : W64), d ≠ 0 →
    add128 (mul128x64 (div128to128 x d).1 d) (pair 0 (div128to128 x d).2) = x

/-- R115: for a normalised divisor and a partial dividend below it, the estimate of a quotient digit is never too small and at most
2 too large, and the corrected digit and the partial remainder are the true quotient, which fits a half-word, and remainder. -/
def Obligations.DigitEstimateOvershootsByAtMostTwo : Prop :=
  ∀ (v n64 : W64) (next32 : Nat), 2 ^ 63 ≤ v.toNat → n64.toNat < v.toNat → next32 < 2 ^ 32 →
    let digit := quotientDigit v n64 next32
    digit.1 = (n64.toNat * 2 ^ 32 + next32) / v.toNat ∧ digit.2.toNat = (n64.toNat * 2 ^ 32 + next32) % v.toNat ∧
      digit.1 < 2 ^ 32 ∧ digit.1 ≤ digitEstimate v n64 ∧ digitEstimate v n64 ≤ digit.1 + Config.DIV_MAX_OVERSHOOT

/-- R117: the hardware's normalised, two-digit, estimate-and-correct division meets the contract the commands compute by. -/
def Obligations.LongDivisionMeetsTheContract : Prop :=
  ∀ (x : W128) (d : W64), (hi x).toNat < d.toNat → longDivide x d = div128to64 x d

/-! ## The roots -/

/-- R125, R126: SQRT_ITER decodes from op code 0x30 and takes one Newton step; a zero estimate gives all ones. -/
def Obligations.SqrtIterTakesOneNewtonStep : Prop :=
  (∀ c : Command, c.op = 0x30#8 → decode c = .ok (.sqrtIter (pair c.aHi c.aLo) c.bLo)) ∧
  (∀ (a : W128) (r : W64) (s : State), ∃ r' : W64,
    exec (.sqrtIter a r) s = .next (afterLegal s (pair 0 r') 0) ∧ r'.toNat = sqrtStepNat a.toNat r.toNat)

/-- R127: ISQRT decodes from op code 0x31; it gives 0 for 0 and else exactly 8 Newton steps from the seed (the seed is the spec's
default, log entry 7; the statement does not depend on which it is). At or above the ceiling it says only that the same steps run
(R130, log entry 14). -/
def Obligations.IsqrtTakesEightStepsFromTheSeed : Prop :=
  (∀ c : Command, c.op = 0x31#8 → decode c = .ok (.isqrt (pair c.aHi c.aLo))) ∧
  (∀ s : State, exec (.isqrt 0) s = .next (afterLegal s 0 0)) ∧
  (∀ (a : W128) (s : State), a ≠ 0 → ∃ r' : W64,
    exec (.isqrt a) s = .next (afterLegal s (pair 0 r') 0) ∧
      r'.toNat = (sqrtStepNat a.toNat)^[8] (seedSqrt a).toNat)

/-- R132, R133: CBRT_ITER decodes from op code 0x32 and takes one Newton step; a zero estimate gives all ones. -/
def Obligations.CbrtIterTakesOneNewtonStep : Prop :=
  (∀ c : Command, c.op = 0x32#8 → decode c = .ok (.cbrtIter (pair c.aHi c.aLo) c.bLo)) ∧
  (∀ (a : W128) (r : W64) (s : State), ∃ r' : W64,
    exec (.cbrtIter a r) s = .next (afterLegal s (pair 0 r') 0) ∧ r'.toNat = cbrtStepNat a.toNat r.toNat)

/-- R134, R135: ICBRT decodes from op code 0x33; it gives 0 for 0 and else exactly 47 Newton steps from the seed, whatever the
open cube-root estimate `FCBRT` is (log entry 6). -/
def Obligations.IcbrtTakesFortySevenStepsFromTheSeed : Prop :=
  (∀ c : Command, c.op = 0x33#8 → decode c = .ok (.icbrt (pair c.aHi c.aLo))) ∧
  (∀ s : State, exec (.icbrt 0) s = .next (afterLegal s 0 0)) ∧
  (∀ (a : W128) (s : State), a ≠ 0 → ∃ r' : W64,
    exec (.icbrt a) s = .next (afterLegal s (pair 0 r') 0) ∧
      r'.toNat = (cbrtStepNat a.toNat)^[47] (f64ToU64Sat (Config.FCBRT (u128ToF64 a))).toNat)

/-- R126: a step from a non-zero estimate that does not overflow is never below the floor of the root, and on a radicand
`k^2 - 1` the steps cycle between `k - 1` and `k`. -/
def Obligations.SqrtStepIsNeverBelowTheFloorAndCycles : Prop :=
  (∀ (x : W128) (r : W64), r ≠ 0 → (r.toNat + x.toNat / r.toNat) / 2 < 2 ^ 64 → Nat.sqrt x.toNat ≤ (sqrtStep x r).toNat) ∧
  (∀ k : Nat, 2 ≤ k → k < 2 ^ 64 →
    sqrtStep (BitVec.ofNat 128 (k ^ 2 - 1)) (BitVec.ofNat 64 (k - 1)) = BitVec.ofNat 64 k ∧
    sqrtStep (BitVec.ofNat 128 (k ^ 2 - 1)) (BitVec.ofNat 64 k) = BitVec.ofNat 64 (k - 1))

/-- R131, below the ceiling: from the floor or one above it, the 8 steps end on the floor or one above it, and on the floor
unless the radicand is one less than a perfect square. -/
def Obligations.EightStepsStayWithinOneOfTheFloor : Prop :=
  ∀ (x : W128) (r : W64), x ≠ 0 → x.toNat < Config.SQRT_CEILING →
    r.toNat = Nat.sqrt x.toNat ∨ r.toNat = Nat.sqrt x.toNat + 1 →
    ((isqrtFrom x r).toNat = Nat.sqrt x.toNat ∨ (isqrtFrom x r).toNat = Nat.sqrt x.toNat + 1) ∧
    ((∀ k, x.toNat + 1 ≠ k ^ 2) → (isqrtFrom x r).toNat = Nat.sqrt x.toNat)

/-- R131, for the whole command with the default seed (log entry 7): below the ceiling ISQRT is the floor of the root or one more,
and is the floor unless the radicand is one less than a perfect square. -/
def Obligations.IsqrtIsTheFloorOrOneMore : Prop :=
  ∀ x : W128, x.toNat < Config.SQRT_CEILING →
    ((isqrt x).toNat = Nat.sqrt x.toNat ∨ (isqrt x).toNat = Nat.sqrt x.toNat + 1) ∧
    ((∀ k, x.toNat + 1 ≠ k ^ 2) → (isqrt x).toNat = Nat.sqrt x.toNat)

/-- R133, R135: a perfect cube seeded at its root stays there, through one step and through 47. -/
def Obligations.PerfectCubeIsAFixedPoint : Prop :=
  ∀ k : Nat, 1 ≤ k → k ^ 3 < 2 ^ 128 →
    cbrtStep (BitVec.ofNat 128 (k ^ 3)) (BitVec.ofNat 64 k) = BitVec.ofNat 64 k ∧
    icbrtFrom (BitVec.ofNat 128 (k ^ 3)) (BitVec.ofNat 64 k) = BitVec.ofNat 64 k

/-! ## The converters -/

/-- R146, R147: U128_TO_F64 decodes from op code 0x40; its result is the pattern of a finite non-negative number, and that number is
the operand with its low bits dropped and the rest rounded to 53 bits. -/
def Obligations.U128ToF64RoundsTheTopLimb : Prop :=
  (∀ c : Command, c.op = 0x40#8 → decode c = .ok (.u128ToF64 (pair c.aHi c.aLo))) ∧
  (∀ (a : W128) (s : State), ∃ (p : W64) (m e : Nat), exec (.u128ToF64 a) s = .next (afterLegal s (pair 0 p) 0) ∧
    binary64.unpack p.toNat = .finite false m e ∧ m * 2 ^ e = convertedValue 53 a.toNat * binary64.unit)

/-- R146, R148: U128_TO_F32 decodes from op code 0x41; its result is +infinity exactly when the rounded number is 2^128, that is from
`A.hi = 0xFFFFFF8000000000` up, and is else the finite pattern of the operand dropped and rounded to 24 bits. -/
def Obligations.U128ToF32RoundsTheTopLimbOrOverflows : Prop :=
  (∀ c : Command, c.op = 0x41#8 → decode c = .ok (.u128ToF32 (pair c.aHi c.aLo))) ∧
  (∀ (a : W128) (s : State), 0xFFFFFF8000000000 ≤ (hi a).toNat →
    exec (.u128ToF32 a) s = .next (afterLegal s 0x7F800000#128 0)) ∧
  (∀ (a : W128) (s : State), (hi a).toNat < 0xFFFFFF8000000000 → ∃ (p : W32) (m e : Nat),
    exec (.u128ToF32 a) s = .next (afterLegal s (p.setWidth 128) 0) ∧
      binary32.unpack p.toNat = .finite false m e ∧ m * 2 ^ e = convertedValue 24 a.toNat * binary32.unit)

/-- R149: both conversions are monotone in the operand. Patterns of non-negative numbers order as the numbers do, +infinity on
top, so the comparison is of patterns. -/
def Obligations.IntegerToFloatIsMonotone : Prop :=
  ∀ x y : W128, x ≤ y → u128ToF64 x ≤ u128ToF64 y ∧ u128ToF32 x ≤ u128ToF32 y

/-- R147, R148: operands whose bits fit the significand convert exactly. -/
def Obligations.SmallIntegersConvertExactly : Prop :=
  (∀ x : W128, x.toNat < 2 ^ 53 → ∃ m e,
    binary64.unpack (u128ToF64 x).toNat = .finite false m e ∧ m * 2 ^ e = x.toNat * binary64.unit) ∧
  (∀ x : W128, x.toNat < 2 ^ 24 → ∃ m e,
    binary32.unpack (u128ToF32 x).toNat = .finite false m e ∧ m * 2 ^ e = x.toNat * binary32.unit)

/-- The cast's rounding (R13, R146): the nearest multiple, and the even one at a tie. -/
def Obligations.CastRoundsToNearestTiesToEven : Prop :=
  ∀ n d : Nat, 0 < d →
    2 * (roundDiv n d * d) ≤ 2 * n + d ∧ 2 * n ≤ 2 * (roundDiv n d * d) + d ∧
    (2 * (roundDiv n d * d) = 2 * n + d ∨ 2 * n = 2 * (roundDiv n d * d) + d → roundDiv n d % 2 = 0)

/-- R151, R153: F64_TO_U128 decodes from op code 0x42 and gives the largest power of two not above the value, or 0 (the reading of
the source the spec keeps, log entry 13). -/
def Obligations.F64ToU128GivesAPowerOfTwo : Prop :=
  (∀ c : Command, c.op = 0x42#8 → decode c = .ok (.f64ToU128 c.aLo)) ∧
  (∀ (p : W64) (s : State), ∃ r : W128, exec (.f64ToU128 p) s = .next (afterLegal s r 0) ∧
    r.toNat = convertedInteger binary64 p.toNat)

/-- R152, R153: F32_TO_U128 decodes from op code 0x43, ignores `A.lo[63:32]`, and gives the largest power of two not above the value,
or 0. -/
def Obligations.F32ToU128GivesAPowerOfTwo : Prop :=
  (∀ c : Command, c.op = 0x43#8 → decode c = .ok (.f32ToU128 (c.aLo.setWidth 32))) ∧
  (∀ (p : W32) (s : State), ∃ r : W128, exec (.f32ToU128 p) s = .next (afterLegal s r 0) ∧
    r.toNat = convertedInteger binary32 p.toNat)

/-- R156: converting to binary64 and back gives the operand exactly when it is a power of two (or zero). -/
def Obligations.RoundTripKeepsExactlyPowersOfTwo : Prop :=
  ∀ x : W128, f64ToU128 (u128ToF64 x) = x ↔ x = 0 ∨ ∃ k : Nat, k < 128 ∧ x.toNat = 2 ^ k

/-! ## Helper operations -/

/-- R71, R73: the comparisons are those of the values, and minimum and maximum follow. -/
def Obligations.ComparisonsAreThoseOfTheValues : Prop :=
  ∀ x y : W128, (lt128 x y = true ↔ x.toNat < y.toNat) ∧ (eq128 x y = true ↔ x = y) ∧
    (le128 x y = true ↔ x.toNat ≤ y.toNat) ∧ (gt128 x y = true ↔ y.toNat < x.toNat) ∧
    (ge128 x y = true ↔ y.toNat ≤ x.toNat) ∧ (ne128 x y = true ↔ x ≠ y) ∧
    (min128 x y).toNat = min x.toNat y.toNat ∧ (max128 x y).toNat = max x.toNat y.toNat

/-- R76, R77: the limb-wise shifts are multiplication modulo 2^128 and division by a power of two, for every amount. -/
def Obligations.ShiftsAreThoseOfTheValues : Prop :=
  ∀ (x : W128) (b : Nat), (shl128 x b).toNat = x.toNat * 2 ^ b % 2 ^ 128 ∧ (shr128 x b).toNat = x.toNat / 2 ^ b

/-- R78: the leading-zero count of a non-zero word places its first set bit. -/
def Obligations.LeadingZeroCountPlacesTheFirstSetBit : Prop :=
  ∀ w : W64, w ≠ 0 → clz64 w ≤ 63 ∧ 2 ^ (63 - clz64 w) ≤ w.toNat ∧ w.toNat < 2 ^ (64 - clz64 w)

/-- R72, R74: the bitwise operators act limb by limb as on 128 bits; a scalar of at most a word becomes its zero-extended or
two's-complement image, a double-width integer keeps its bits, and any other width is refused. -/
def Obligations.BitwiseAndConstructionAct128BitsWide : Prop :=
  (∀ x y : W128, and128 x y = x &&& y ∧ or128 x y = x ||| y ∧ xor128 x y = x ^^^ y ∧ not128 x = ~~~x) ∧
  (∀ (n : Nat) (v : BitVec n), n ≤ 64 →
    fromUnsigned n v = .ok (v.setWidth 128) ∧ fromSigned n v = .ok (v.signExtend 128)) ∧
  (∀ v : BitVec 128, fromUnsigned 128 v = .ok v ∧ fromSigned 128 v = .ok v) ∧
  (∀ (n : Nat) (v : BitVec n), 64 < n → n ≠ 128 →
    fromUnsigned n v = .error (.unsupportedWidth n) ∧ fromSigned n v = .error (.unsupportedWidth n))

/-! ## Whole-machine rules -/

/-- The invariant holds after reset. -/
def Obligations.InvariantHoldsAtReset : Prop :=
  State.reset.Inv

/-- Every step from a state with the invariant gives a state with it (R56, R112, R196, R33). -/
def Obligations.EveryStepKeepsTheInvariant : Prop :=
  ∀ s t : State, s.Inv → step s = .next t → t.Inv

/-- R45: a step of one lane leaves every other lane as it was, and steps of two lanes commute. -/
def Obligations.LanesDoNotInterfere : Prop :=
  (∀ (b b' : Block) (k j : Nat), stepLane k b = .next b' → j ≠ k → b'[j]? = b[j]?) ∧
  (∀ (b b₁ b₂ : Block) (k j : Nat), k ≠ j → stepLane k b = .next b₁ → stepLane j b₁ = .next b₂ →
    ∃ b₁', stepLane j b = .next b₁' ∧ stepLane k b₁' = .next b₂)

/-- R178: lanes that share `rst` all leave reset together, in the same state, each ready; and on a common clock every lane takes
its own step. (That reset clears the model's own mark too is the model's choice, log entry 10.) -/
def Obligations.LanesLeaveResetTogether : Prop :=
  (∀ b : Block, (∀ s ∈ b, s.portsNow.rst = true) → stepAll b = .next (b.map fun s => afterReset s.host.tail false)) ∧
  (∀ b b' : Block, stepAll b = .next b' → b'.length = b.length ∧
    ∀ (k : Nat) (s t : State), b[k]? = some s → b'[k]? = some t → step s = .next t)
end

