-- ==== Sys2Proof/Laws/Limb.lean ====
section
/-! SUPPORT. Limb pairs: taking apart and putting together are inverse, and `val` is the number of the 128-bit vector. -/

namespace Sys2Proof.Machine

@[simp] theorem toNat_pair (h l : W64) : (pair h l).toNat = h.toNat * 2 ^ 64 + l.toNat := by
  have hl := l.isLt
  simp only [pair, BitVec.toNat_append]
  rw [← Nat.shiftLeft_add_eq_or_of_lt hl, Nat.shiftLeft_eq]

theorem toNat_lo (x : W128) : (lo x).toNat = x.toNat % 2 ^ 64 := by
  simp [lo, BitVec.extractLsb'_toNat]

theorem toNat_hi (x : W128) : (hi x).toNat = x.toNat / 2 ^ 64 := by
  have hx := x.isLt
  simp only [hi, BitVec.extractLsb'_toNat, Nat.shiftRight_eq_div_pow]
  exact Nat.mod_eq_of_lt (by omega)

@[simp] theorem lo_pair (h l : W64) : lo (pair h l) = l := by
  have hl := l.isLt
  apply BitVec.eq_of_toNat_eq
  rw [toNat_lo, toNat_pair]
  omega

@[simp] theorem hi_pair (h l : W64) : hi (pair h l) = h := by
  have hl := l.isLt
  apply BitVec.eq_of_toNat_eq
  rw [toNat_hi, toNat_pair]
  omega

/-- `val` is the number of the bit vector (40_limb_primitives.md R70, 00_scope.md R9). -/
theorem val_eq_toNat (x : W128) : val x = x.toNat := by
  rw [val, toNat_hi, toNat_lo]
  omega

@[simp] theorem pair_hi_lo (x : W128) : pair (hi x) (lo x) = x := by
  apply BitVec.eq_of_toNat_eq
  rw [toNat_pair, toNat_hi, toNat_lo]
  omega

/-- Two pairs are equal when their limbs are (40_limb_primitives.md R71). -/
theorem eq_of_limbs {x y : W128} (hHi : hi x = hi y) (hLo : lo x = lo y) : x = y := by
  rw [← pair_hi_lo x, ← pair_hi_lo y, hHi, hLo]

theorem pair_inj {h l h' l' : W64} : pair h l = pair h' l' ↔ h = h' ∧ l = l' := by
  constructor
  · intro e
    exact ⟨by simpa using congrArg hi e, by simpa using congrArg lo e⟩
  · rintro ⟨rfl, rfl⟩
    rfl

end Sys2Proof.Machine
end

