-- ==== Sys2Proof/Laws/Codec.lean ====
section
/-! SUPPORT. The fields of a command word: laying them out and reading them back are inverse (30_encoding.md R51). -/

namespace Sys2Proof

open Sys2Proof.Machine

/-- The number of two fields laid side by side. -/
theorem toNat_append_eq {n m : Nat} (u : BitVec n) (v : BitVec m) : (u ++ v).toNat = u.toNat * 2 ^ m + v.toNat := by
  rw [BitVec.toNat_append, ← Nat.shiftLeft_add_eq_or_of_lt v.isLt, Nat.shiftLeft_eq]

/-- The number of a command word, from its fields. -/
theorem Command.toNat_toWord (c : Command) :
    c.toWord.toNat =
      (((c.op.toNat * 2 ^ 64 + c.aHi.toNat) * 2 ^ 64 + c.aLo.toNat) * 2 ^ 64 + c.bHi.toNat) * 2 ^ 64 + c.bLo.toNat := by
  simp only [Command.toWord, toNat_append_eq]

/-- Reading the fields of the word of a command gives the command back. -/
@[simp] theorem Command.ofWord_toWord (c : Command) : Command.ofWord c.toWord = c := by
  have hw := c.toNat_toWord
  cases c with
  | mk op aHi aLo bHi bLo =>
    have h1 := op.isLt
    have h2 := aHi.isLt
    have h3 := aLo.isLt
    have h4 := bHi.isLt
    have h5 := bLo.isLt
    simp only [Command.ofWord, Command.mk.injEq]
    refine ⟨?_, ?_, ?_, ?_, ?_⟩ <;>
    · apply BitVec.eq_of_toNat_eq
      simp only [BitVec.extractLsb'_toNat, Nat.shiftRight_eq_div_pow, hw]
      omega

/-- Every command word is the word of its fields. -/
@[simp] theorem Command.toWord_ofWord (w : W264) : (Command.ofWord w).toWord = w := by
  have hw := w.isLt
  apply BitVec.eq_of_toNat_eq
  rw [Command.toNat_toWord]
  simp only [Command.ofWord, BitVec.extractLsb'_toNat, Nat.shiftRight_eq_div_pow]
  omega

/-- The command of a number is the command of that 264-bit word. -/
theorem Command.ofNat_eq_ofWord (w : Nat) : Command.ofNat w = Command.ofWord (BitVec.ofNat 264 w) := by
  simp only [Command.ofNat, Command.ofWord, Command.mk.injEq]
  refine ⟨?_, ?_, ?_, ?_, ?_⟩ <;>
  · apply BitVec.eq_of_toNat_eq
    simp only [BitVec.extractLsb'_toNat, Nat.shiftRight_eq_div_pow, BitVec.toNat_ofNat]
    omega

/-- A limb made of a binary32 pattern gives the pattern back (45_conversion.md R145). -/
@[simp] theorem extract_zext64 (p : W32) : (zext64 p).extractLsb' 0 32 = p := by
  have := p.isLt
  apply BitVec.eq_of_toNat_eq
  simp [zext64, BitVec.extractLsb'_toNat]
  omega

end Sys2Proof
end

