-- ==== Sys2Proof/Laws/State.lean ====
section
/-! SUPPORT. What each register operation does to each field of the state: one lemma per field per operation. -/

namespace Sys2Proof.Machine

variable (c : Command) (f : InFlight) (r : Response) (s : State)

@[simp] theorem complete_R : (complete r s).R = r.R := rfl
@[simp] theorem complete_S : (complete r s).S = r.S := rfl
@[simp] theorem complete_ILL : (complete r s).ILL = r.ILL := rfl
@[simp] theorem complete_inFlight : (complete r s).inFlight = none := rfl
@[simp] theorem complete_rspValid : (complete r s).rspValid = true := rfl
@[simp] theorem complete_host : (complete r s).host = s.host := rfl
@[simp] theorem complete_outsideGuarantee : (complete r s).outsideGuarantee = s.outsideGuarantee := rfl
@[simp] theorem complete_response : (complete r s).response = r := rfl

@[simp] theorem completeReserved_R : (completeReserved s).R = respondReserved.R := rfl
@[simp] theorem completeReserved_S : (completeReserved s).S = respondReserved.S := rfl
@[simp] theorem completeReserved_ILL : (completeReserved s).ILL = illReserved := rfl
@[simp] theorem completeReserved_inFlight : (completeReserved s).inFlight = none := rfl
@[simp] theorem completeReserved_rspValid : (completeReserved s).rspValid = true := rfl
@[simp] theorem completeReserved_host : (completeReserved s).host = s.host := rfl
@[simp] theorem completeReserved_outsideGuarantee : (completeReserved s).outsideGuarantee = true := rfl
@[simp] theorem completeReserved_response : (completeReserved s).response = respondReserved := rfl

@[simp] theorem nextEdge_R : (nextEdge s).R = s.R := rfl
@[simp] theorem nextEdge_S : (nextEdge s).S = s.S := rfl
@[simp] theorem nextEdge_ILL : (nextEdge s).ILL = s.ILL := rfl
@[simp] theorem nextEdge_inFlight : (nextEdge s).inFlight = s.inFlight := rfl
@[simp] theorem nextEdge_rspValid : (nextEdge s).rspValid = false := rfl
@[simp] theorem nextEdge_host : (nextEdge s).host = s.host.tail := rfl
@[simp] theorem nextEdge_outsideGuarantee : (nextEdge s).outsideGuarantee = s.outsideGuarantee := rfl
@[simp] theorem nextEdge_response : (nextEdge s).response = s.response := rfl

@[simp] theorem accept_R : (accept c s).R = s.R := rfl
@[simp] theorem accept_S : (accept c s).S = s.S := rfl
@[simp] theorem accept_ILL : (accept c s).ILL = s.ILL := rfl
@[simp] theorem accept_inFlight : (accept c s).inFlight = some ⟨c, latency c⟩ := rfl
@[simp] theorem accept_rspValid : (accept c s).rspValid = s.rspValid := rfl
@[simp] theorem accept_host : (accept c s).host = s.host := rfl
@[simp] theorem accept_outsideGuarantee : (accept c s).outsideGuarantee = s.outsideGuarantee := rfl
@[simp] theorem accept_response : (accept c s).response = s.response := rfl

@[simp] theorem countDown_R : (countDown f s).R = s.R := rfl
@[simp] theorem countDown_S : (countDown f s).S = s.S := rfl
@[simp] theorem countDown_ILL : (countDown f s).ILL = s.ILL := rfl
@[simp] theorem countDown_inFlight : (countDown f s).inFlight = some ⟨f.cmd, f.remaining - 1⟩ := rfl
@[simp] theorem countDown_rspValid : (countDown f s).rspValid = s.rspValid := rfl
@[simp] theorem countDown_host : (countDown f s).host = s.host := rfl
@[simp] theorem countDown_outsideGuarantee : (countDown f s).outsideGuarantee = s.outsideGuarantee := rfl
@[simp] theorem countDown_response : (countDown f s).response = s.response := rfl

@[simp] theorem resetLane_R : (resetLane s).R = 0 := rfl
@[simp] theorem resetLane_S : (resetLane s).S = 0 := rfl
@[simp] theorem resetLane_ILL : (resetLane s).ILL = 0 := rfl
@[simp] theorem resetLane_inFlight : (resetLane s).inFlight = none := rfl
@[simp] theorem resetLane_rspValid : (resetLane s).rspValid = false := rfl
@[simp] theorem resetLane_host : (resetLane s).host = s.host := rfl
@[simp] theorem resetLane_outsideGuarantee : (resetLane s).outsideGuarantee = false := rfl

@[simp] theorem placeCommand_R : (placeCommand c s).R = s.R := rfl
@[simp] theorem placeCommand_S : (placeCommand c s).S = s.S := rfl
@[simp] theorem placeCommand_ILL : (placeCommand c s).ILL = s.ILL := rfl
@[simp] theorem placeCommand_inFlight : (placeCommand c s).inFlight = some ⟨c, 1⟩ := rfl
@[simp] theorem placeCommand_rspValid : (placeCommand c s).rspValid = s.rspValid := rfl
@[simp] theorem placeCommand_outsideGuarantee : (placeCommand c s).outsideGuarantee = s.outsideGuarantee := rfl

/-- The edge at which a placed command completes is no reset. -/
@[simp] theorem placeCommand_portsNow_rst : (placeCommand c s).portsNow.rst = false := by
  cases h : s.host <;> simp [placeCommand, State.portsNow, h, Ports.idle]

end Sys2Proof.Machine
end

