-- ==== Sys2Proof/Laws/Step.lean ====
section
/-! SUPPORT. Said once: everything a command's completion can do, and everything one rising edge can do. -/

namespace Sys2Proof.Machine

/-- A legal command always completes, its response does not depend on the state, and it clears `ILL` (10_state.md R33,
20_memory.md R44, 30_encoding.md R58). -/
theorem exec_completes (i : Instr) : ∃ r : Response, r.ILL = illLegal ∧ ∀ s, exec i s = .next (complete r s) := by
  cases i <;> exact ⟨_, rfl, fun _ => rfl⟩

/-- Everything the completion of a command can do: the response of a legal command, or the response to a reserved op code and
the mark. -/
theorem runCommand_cases (c : Command) :
    (∃ i r, decode c = .ok i ∧ r.ILL = illLegal ∧ ∀ s, runCommand c s = .next (complete r s)) ∨
    (∃ e, decode c = .error e ∧ ∀ s, runCommand c s = .next (completeReserved s)) := by
  cases h : decode c with
  | ok i =>
    obtain ⟨r, hr, he⟩ := exec_completes i
    exact .inl ⟨i, r, rfl, hr, fun s => by simpa [runCommand, h] using he s⟩
  | error e => exact .inr ⟨e, rfl, fun s => by simp [runCommand, h]⟩

/-- Everything one rising edge can do: reset, idle, accept, count down, or complete. -/
theorem step_cases {s t : State} (h : step s = .next t) :
    (s.portsNow.rst = true ∧ t = resetLane (nextEdge s)) ∨
    (s.portsNow.rst = false ∧ s.inFlight = none ∧ s.portsNow.cmdValid = false ∧ t = nextEdge s) ∨
    (s.portsNow.rst = false ∧ s.inFlight = none ∧ s.portsNow.cmdValid = true ∧ t = accept s.portsNow.cmd (nextEdge s)) ∨
    (∃ f, s.portsNow.rst = false ∧ s.inFlight = some f ∧ 1 < f.remaining ∧ t = countDown f (nextEdge s)) ∨
    (∃ f, s.portsNow.rst = false ∧ s.inFlight = some f ∧ f.remaining ≤ 1 ∧
      runCommand f.cmd (nextEdge s) = .next t) := by
  simp only [step, clockEdge] at h
  cases hr : s.portsNow.rst with
  | true =>
    rw [hr, if_pos rfl] at h
    exact .inl ⟨rfl, by cases h; rfl⟩
  | false =>
    rw [hr, if_neg (by simp)] at h
    cases hf : s.inFlight with
    | none =>
      rw [hf] at h
      cases hv : s.portsNow.cmdValid with
      | true => exact .inr (.inr (.inl ⟨rfl, rfl, rfl, by simpa [hv, eq_comm] using h⟩))
      | false => exact .inr (.inl ⟨rfl, rfl, rfl, by simpa [hv, eq_comm] using h⟩)
    | some f =>
      rw [hf] at h
      by_cases hn : f.remaining ≤ 1
      · exact .inr (.inr (.inr (.inr ⟨f, rfl, rfl, hn, by simpa [hn] using h⟩)))
      · refine .inr (.inr (.inr (.inl ⟨f, rfl, rfl, by omega, ?_⟩)))
        simpa [hn, eq_comm] using h

end Sys2Proof.Machine
end

