-- ==== Sys2Proof/Laws/HostRun.lean ====
section
/-! SUPPORT. What one edge, a list of edges and a script do to what the host has seen. -/

namespace Sys2Proof.Machine

variable (p : Ports) (s t : State) (o : Observed)

@[simp] theorem drive_R : (drive p s).R = s.R := rfl
@[simp] theorem drive_S : (drive p s).S = s.S := rfl
@[simp] theorem drive_ILL : (drive p s).ILL = s.ILL := rfl
@[simp] theorem drive_inFlight : (drive p s).inFlight = s.inFlight := rfl
@[simp] theorem drive_rspValid : (drive p s).rspValid = s.rspValid := rfl
@[simp] theorem drive_host : (drive p s).host = [p] := rfl
@[simp] theorem drive_outsideGuarantee : (drive p s).outsideGuarantee = s.outsideGuarantee := rfl
@[simp] theorem drive_response : (drive p s).response = s.response := rfl
@[simp] theorem drive_portsNow : (drive p s).portsNow = p := rfl

@[simp] theorem start_lane : (Observed.start s).lane = s := rfl
@[simp] theorem start_accepted : (Observed.start s).accepted = [] := rfl
@[simp] theorem start_responses : (Observed.start s).responses = [] := rfl

@[simp] theorem record_lane : (o.record p t).lane = t := rfl
@[simp] theorem record_accepted :
    (o.record p t).accepted = if p.rst then [] else if accepts p o.lane then o.accepted ++ [p.cmd] else o.accepted := rfl
@[simp] theorem record_responses :
    (o.record p t).responses = if p.rst then [] else if t.rspValid then o.responses ++ [t.response] else o.responses := rfl

/-- A command is accepted exactly by a ready lane, with no reset (10_state.md R32). -/
theorem accepts_iff : accepts p s = true ↔ p.rst = false ∧ p.cmdValid = true ∧ s.inFlight = none := by
  cases h : s.inFlight <;> simp [accepts, State.cmdReady, State.BUSY, h]

variable {p s t o}

/-- An edge the lane takes is an edge the host notes. -/
theorem edge_of_step (h : step (drive p o.lane) = .next t) : o.edge p = .next (o.record p t) := by
  simp only [Observed.edge, h]

/-- Everything an edge can do to what the host has seen. -/
theorem step_of_edge {o' : Observed} (h : o.edge p = .next o') :
    ∃ t, step (drive p o.lane) = .next t ∧ o' = o.record p t := by
  unfold Observed.edge at h
  cases hs : step (drive p o.lane) with
  | next t => exact ⟨t, rfl, by rw [hs] at h; cases h; rfl⟩
  | fault r => cases r
  | refused r => rw [hs] at h; cases h

@[simp] theorem edges_nil : o.edges [] = .next o := rfl

/-- The first of several edges. -/
theorem edges_cons_of_edge {o' : Observed} (h : o.edge p = .next o') (ps : List Ports) : o.edges (p :: ps) = o'.edges ps := by
  simp only [Observed.edges, h]

/-- Edges that go on where others end. -/
theorem edges_append {ps : List Ports} {o' : Observed} (qs : List Ports) (h : o.edges ps = .next o') :
    o.edges (ps ++ qs) = o'.edges qs := by
  induction ps generalizing o with
  | nil => cases h; rfl
  | cons p ps ih =>
    rw [Observed.edges] at h
    cases he : o.edge p with
    | next u =>
      rw [he] at h
      rw [List.cons_append, edges_cons_of_edge he, ih h]
    | fault r => cases r
    | refused r => rw [he] at h; cases h

@[simp] theorem play_zero (script : Script) : o.play script 0 = .next o := rfl

/-- A script that has come to its end. -/
theorem play_of_none {script : Script} (h : script o.responses = none) (n : Nat) : o.play script (n + 1) = .next o := by
  simp only [Observed.play, h]

/-- One turn of a script. -/
theorem play_of_some {script : Script} {gap : Nat} {c : Command} {o' : Observed} (h : script o.responses = some (gap, c))
    (ho : o.edges (turnPorts gap c) = .next o') (n : Nat) : o.play script (n + 1) = o'.play script n := by
  simp only [Observed.play, h, ho]

end Sys2Proof.Machine
end

