-- ==== Sys2Proof/Laws/Operations.lean ====
section
/-! SUPPORT. What the shared operations under the meanings do, once each, so that no proof unfolds them again: the operand forms,
the response shapes, the divisions, the fixed-count loop, and the edge schedule of a host. -/

namespace Sys2Proof.Machine

@[simp] theorem lo_operandA (c : Command) : lo (operandA c) = c.aLo := lo_pair _ _
@[simp] theorem hi_operandA (c : Command) : hi (operandA c) = c.aHi := hi_pair _ _
@[simp] theorem lo_operandB (c : Command) : lo (operandB c) = c.bLo := lo_pair _ _
@[simp] theorem hi_operandB (c : Command) : hi (operandB c) = c.bHi := hi_pair _ _

@[simp] theorem respondPair_R (r : W128) : (respondPair r).R = r := rfl
@[simp] theorem respondPair_S (r : W128) : (respondPair r).S = 0 := rfl
@[simp] theorem respondPair_ILL (r : W128) : (respondPair r).ILL = 0 := rfl
@[simp] theorem respondWord_R (w : W64) : (respondWord w).R = pair 0 w := rfl
@[simp] theorem respondWord_S (w : W64) : (respondWord w).S = 0 := rfl
@[simp] theorem respondWord_ILL (w : W64) : (respondWord w).ILL = 0 := rfl
@[simp] theorem respondDivision_R (q : W128) (m : W64) : (respondDivision q m).R = q := rfl
@[simp] theorem respondDivision_S (q : W128) (m : W64) : (respondDivision q m).S = m := rfl
@[simp] theorem respondDivision_ILL (q : W128) (m : W64) : (respondDivision q m).ILL = 0 := rfl
@[simp] theorem respondReserved_R : respondReserved.R = pair Config.SENTINEL64 Config.SENTINEL64 := rfl
@[simp] theorem respondReserved_S : respondReserved.S = Config.SENTINEL64 := rfl
@[simp] theorem respondReserved_ILL : respondReserved.ILL = 1 := rfl

/-- A scalar of at most a word converts to its image (40_limb_primitives.md R72). -/
theorem fromScalar_of_le {n : Nat} {v : BitVec n} {image : W128} (h : n ≤ 64) : fromScalar n v image = .ok image := if_pos h

/-- A scalar that is neither a word or less nor a double-width integer is refused (R72, 93_implementation_defined.md U19). -/
theorem fromScalar_of_unsupported {n : Nat} {v : BitVec n} {image : W128} (h : 64 < n) (h' : n ≠ 128) :
    fromScalar n v image = .error (.unsupportedWidth n) := by
  simp [fromScalar, Nat.not_le.2 h, h']

/-- A double-width integer keeps its bits (R72). -/
@[simp] theorem fromDouble_eq (v : W128) : fromDouble v = v := pair_hi_lo v

/-- The sentinel arm of `div128to64` (43_division.md R112). -/
theorem div128to64_of_le {x : W128} {d : W64} (h : d ≤ hi x) :
    div128to64 x d = (Config.SENTINEL64, Config.SENTINEL64) := if_pos h

/-- The other arm of `div128to64` (43_division.md R110). -/
theorem div128to64_of_lt {x : W128} {d : W64} (h : hi x < d) :
    div128to64 x d = (BitVec.ofNat 64 (val x / d.toNat), BitVec.ofNat 64 (val x % d.toNat)) :=
  if_neg (by simpa using h)

/-- A zero divisor in `div128to128` (43_division.md R120). -/
@[simp] theorem div128to128_zero (x : W128) :
    div128to128 x 0 = (pair Config.SENTINEL64 Config.SENTINEL64, Config.SENTINEL64) := rfl

@[simp] theorem repeatStep_zero (g : W64 → W64) (r : W64) : repeatStep g 0 r = r := rfl
@[simp] theorem repeatStep_succ (g : W64 → W64) (n : Nat) (r : W64) :
    repeatStep g (n + 1) r = repeatStep g n (g r) := rfl

/-- The fixed-count loop keeps whatever one step keeps. -/
theorem repeatStep_keeps {g : W64 → W64} {P : W64 → Prop} (hg : ∀ r, P r → P (g r)) :
    ∀ (n : Nat) (r : W64), P r → P (repeatStep g n r)
  | 0, _, h => h
  | n + 1, r, h => repeatStep_keeps hg n (g r) (hg r h)

@[simp] theorem isqrt_zero : isqrt (pair 0 0) = 0 := if_pos rfl
@[simp] theorem icbrt_zero : icbrt (pair 0 0) = 0 := if_pos rfl

theorem latency_pos (c : Command) : 1 ≤ latency c := Nat.succ_le_succ (Nat.zero_le _)

@[simp] theorem hostSchedule_nil : hostSchedule [] = [] := rfl

/-- One command takes its acceptance edge and `LAT` more (10_state.md R33). -/
theorem length_hostSchedule_cons (c : Command) (cs : List Command) :
    (hostSchedule (c :: cs)).length = 1 + latency c + (hostSchedule cs).length := by
  simp [hostSchedule]
  omega

/-- A step of a lane that exists is a step of that lane alone. -/
theorem stepLane_of_getElem {k : Nat} {b : Block} {s : State} (h : b[k]? = some s) :
    stepLane k b = putLane k b (step s) := by
  simp [stepLane, h]

end Sys2Proof.Machine
end

