-- ==== Sys2Proof/Laws/PerInstr.lean ====
section
/-! SUPPORT. Statements about the syntax of every instruction, one lemma per constructor. -/

namespace Sys2Proof.Laws.EncodedWellFormed

/-- The assembler writes a legal op code, zero in every ignored bit, and the format the op code selects is the instruction's own
(30_encoding.md R54, R55, R59). -/
def Statement (i : Instr) : Prop := (encode i).wellFormed = true ∧ Format.ofOp (encode i).op = some i.format

theorem add128 (a b : W128) : Statement (.add128 a b) := ⟨rfl, rfl⟩
theorem sub128 (a b : W128) : Statement (.sub128 a b) := ⟨rfl, rfl⟩
theorem inc128 (a : W128) : Statement (.inc128 a) := ⟨rfl, rfl⟩
theorem dec128 (a : W128) : Statement (.dec128 a) := ⟨rfl, rfl⟩
theorem mul64w (a b : W64) : Statement (.mul64w a b) := ⟨rfl, rfl⟩
theorem mul128x64 (a : W128) (y : W64) : Statement (.mul128x64 a y) := ⟨rfl, rfl⟩
theorem div128to64 (a : W128) (d : W64) : Statement (.div128to64 a d) := ⟨rfl, rfl⟩
theorem div128to128 (a : W128) (d : W64) : Statement (.div128to128 a d) := ⟨rfl, rfl⟩
theorem sqrtIter (a : W128) (r : W64) : Statement (.sqrtIter a r) := ⟨rfl, rfl⟩
theorem isqrt (a : W128) : Statement (.isqrt a) := ⟨rfl, rfl⟩
theorem cbrtIter (a : W128) (r : W64) : Statement (.cbrtIter a r) := ⟨rfl, rfl⟩
theorem icbrt (a : W128) : Statement (.icbrt a) := ⟨rfl, rfl⟩
theorem u128ToF64 (a : W128) : Statement (.u128ToF64 a) := ⟨rfl, rfl⟩
theorem u128ToF32 (a : W128) : Statement (.u128ToF32 a) := ⟨rfl, rfl⟩
theorem f64ToU128 (p : W64) : Statement (.f64ToU128 p) := ⟨rfl, rfl⟩

/-- The one form whose ignored bits lie inside a field: `A.lo[63:32]` of a binary32 pattern. -/
theorem f32ToU128 (p : W32) : Statement (.f32ToU128 p) := by
  refine ⟨?_, rfl⟩
  have h : Machine.zext64 p >>> 32 = 0 := by
    apply BitVec.eq_of_toNat_eq
    have := p.isLt
    simp [Machine.zext64, Nat.shiftRight_eq_div_pow]
    omega
  simp [Command.wellFormed, encode, reservedOp, Format.ofOp, Format.ignoredBitsZero, h]

end Sys2Proof.Laws.EncodedWellFormed
end

