-- ==== Sys2Proof/Laws/Run.lean ====
section
/-! SUPPORT. Runs of several edges: the host's `Core.run` one edge at a time, from the front and from the back. -/

namespace Sys2Proof.Machine

@[simp] theorem run_zero (s : State) : Sys2Proof.core.run 0 s = .next s := rfl

/-- The first edge of a run. -/
theorem run_succ_of_step {s t : State} (h : step s = .next t) (k : Nat) :
    Sys2Proof.core.run (k + 1) s = Sys2Proof.core.run k t := by
  have hs : Sys2Proof.core.step s = .next t := h
  simp only [Host.Core.run, hs]

/-- A run of one edge or more that ends in a state took a first step. -/
theorem exists_step_of_run_succ {k : Nat} {s t : State} (h : Sys2Proof.core.run (k + 1) s = .next t) :
    ∃ u, step s = .next u ∧ Sys2Proof.core.run k u = .next t := by
  cases hs : step s with
  | next u => exact ⟨u, rfl, by rwa [run_succ_of_step hs] at h⟩
  | fault r => cases r
  | refused r =>
    have hs' : Sys2Proof.core.step s = .refused r := hs
    simp [Host.Core.run, hs'] at h

/-- A run that goes on where another ends. -/
theorem run_add {k : Nat} {s t : State} (j : Nat) (h : Sys2Proof.core.run k s = .next t) :
    Sys2Proof.core.run (k + j) s = Sys2Proof.core.run j t := by
  induction k generalizing s with
  | zero =>
    cases h
    rw [Nat.zero_add]
  | succ k ih =>
    obtain ⟨u, hu, hr⟩ := exists_step_of_run_succ h
    rw [Nat.succ_add, run_succ_of_step hu]
    exact ih hr

/-- The last edge of a run. -/
theorem run_succ_of_run {k : Nat} {s t u : State} (h : Sys2Proof.core.run k s = .next t) (hs : step t = .next u) :
    Sys2Proof.core.run (k + 1) s = .next u := by
  rw [run_add 1 h, run_succ_of_step hs, run_zero]

end Sys2Proof.Machine
end

