-- ==== Sys2Proof/Tests/Slice0.lean ====
section
/-! SUPPORT. Tests: ill-formed commands refused; one written-out word per command decoded; one or two single steps per command
against the vectors of 95_test_vectors.md and 96_test_vectors_roots_conversion.md; edges of the handshake trace; and, for each
obligation with hypotheses, a witness that meets them. -/

namespace Sys2Proof.Tests

open Sys2Proof Sys2Proof.Machine Sys2Proof.Claims

-- One test after another: many at a time take more memory than the checks allow.
set_option Elab.async false

/-! ## Well-formedness -/

/-- A command the assembler writes: DIV128TO128 2^120, 7 (V8). -/
theorem test_wellFormed_div : Command.wellFormed ⟨0x21#8, 0x0100000000000000#64, 0, 0, 7⟩ = true := by decide
/-- 0x04, 0x0F, 0x50 and 0xFF are reserved (R56; V21, V22, V27, V29). -/
theorem test_illFormed_reserved :
    ([0x04#8, 0x0F#8, 0x50#8, 0xFF#8].map fun op => Command.wellFormed ⟨op, 0, 5, 0, 7⟩) = [false, false, false, false] := by
  decide
/-- PW: a bit of `B.hi` set (V18). -/
theorem test_illFormed_PW : Command.wellFormed ⟨0x20#8, 2, 9, 0xDEADBEEFDEADBEEF#64, 3⟩ = false := by decide
/-- WW: a bit of `A.hi`, or of `B.hi`, set (V17). -/
theorem test_illFormed_WW :
    Command.wellFormed ⟨0x10#8, 1, 5, 0, 7⟩ = false ∧ Command.wellFormed ⟨0x10#8, 0, 5, 1, 7⟩ = false := by decide
/-- P: a bit of `B.hi`, or of `B.lo`, set (V16). -/
theorem test_illFormed_P :
    Command.wellFormed ⟨0x02#8, 5, 5, 1, 0⟩ = false ∧ Command.wellFormed ⟨0x02#8, 5, 5, 0, 1⟩ = false := by decide
/-- D: a bit of `A.hi`, `B.hi` or `B.lo` set (V19). -/
theorem test_illFormed_D :
    Command.wellFormed ⟨0x42#8, 1, 5, 0, 0⟩ = false ∧ Command.wellFormed ⟨0x42#8, 0, 5, 1, 0⟩ = false ∧
      Command.wellFormed ⟨0x42#8, 0, 5, 0, 1⟩ = false := by decide
/-- F: a bit of `A.lo[63:32]`, `A.hi`, `B.hi` or `B.lo` set (V20). -/
theorem test_illFormed_F :
    Command.wellFormed ⟨0x43#8, 0, 0x000000014B800000#64, 0, 0⟩ = false ∧
      Command.wellFormed ⟨0x43#8, 1, 0x4B800000#64, 0, 0⟩ = false ∧
      Command.wellFormed ⟨0x43#8, 0, 0x4B800000#64, 1, 0⟩ = false ∧
      Command.wellFormed ⟨0x43#8, 0, 0x4B800000#64, 0, 1⟩ = false := by decide

/-! ## Decoding: words written out from R51 and R54, every field with a value of its own -/

theorem test_decode_add128 :
    decodeTableWord 264 0x000000000000000001000000000000000200000000000000030000000000000004 =
      some (.add128 0x00000000000000010000000000000002#128 0x00000000000000030000000000000004#128) := by decide
theorem test_decode_sub128 :
    decodeTableWord 264 0x010000000000000001000000000000000200000000000000030000000000000004 =
      some (.sub128 0x00000000000000010000000000000002#128 0x00000000000000030000000000000004#128) := by decide
theorem test_decode_inc128 :
    decodeTableWord 264 0x020000000000000001000000000000000200000000000000030000000000000004 =
      some (.inc128 0x00000000000000010000000000000002#128) := by decide
theorem test_decode_dec128 :
    decodeTableWord 264 0x030000000000000001000000000000000200000000000000030000000000000004 =
      some (.dec128 0x00000000000000010000000000000002#128) := by decide
theorem test_decode_mul64w :
    decodeTableWord 264 0x100000000000000001000000000000000200000000000000030000000000000004 = some (.mul64w 2#64 4#64) := by decide
theorem test_decode_mul128x64 :
    decodeTableWord 264 0x110000000000000001000000000000000200000000000000030000000000000004 =
      some (.mul128x64 0x00000000000000010000000000000002#128 4#64) := by decide
theorem test_decode_div128to64 :
    decodeTableWord 264 0x200000000000000001000000000000000200000000000000030000000000000004 =
      some (.div128to64 0x00000000000000010000000000000002#128 4#64) := by decide
theorem test_decode_div128to128 :
    decodeTableWord 264 0x210000000000000001000000000000000200000000000000030000000000000004 =
      some (.div128to128 0x00000000000000010000000000000002#128 4#64) := by decide
theorem test_decode_sqrtIter :
    decodeTableWord 264 0x300000000000000001000000000000000200000000000000030000000000000004 =
      some (.sqrtIter 0x00000000000000010000000000000002#128 4#64) := by decide
theorem test_decode_isqrt :
    decodeTableWord 264 0x310000000000000001000000000000000200000000000000030000000000000004 =
      some (.isqrt 0x00000000000000010000000000000002#128) := by decide
theorem test_decode_cbrtIter :
    decodeTableWord 264 0x320000000000000001000000000000000200000000000000030000000000000004 =
      some (.cbrtIter 0x00000000000000010000000000000002#128 4#64) := by decide
theorem test_decode_icbrt :
    decodeTableWord 264 0x330000000000000001000000000000000200000000000000030000000000000004 =
      some (.icbrt 0x00000000000000010000000000000002#128) := by decide
theorem test_decode_u128ToF64 :
    decodeTableWord 264 0x400000000000000001000000000000000200000000000000030000000000000004 =
      some (.u128ToF64 0x00000000000000010000000000000002#128) := by decide
theorem test_decode_u128ToF32 :
    decodeTableWord 264 0x410000000000000001000000000000000200000000000000030000000000000004 =
      some (.u128ToF32 0x00000000000000010000000000000002#128) := by decide
theorem test_decode_f64ToU128 :
    decodeTableWord 264 0x420000000000000001000000000000000200000000000000030000000000000004 = some (.f64ToU128 2#64) := by decide
theorem test_decode_f32ToU128 :
    decodeTableWord 264 0x430000000000000001000000050000000200000000000000030000000000000004 = some (.f32ToU128 2#32) := by decide
/-- V21: a reserved op code is no instruction. -/
theorem test_decode_reserved :
    decodeTableWord 264 0x040000000000000000000000000000000500000000000000000000000000000007 =
      none := by decide

/-- The assembler's word of `DIV128TO128 2^120, 7` (R59, V8). -/
theorem test_encode_div128to128 :
    encodeWord (.div128to128 0x01000000000000000000000000000000#128 7#64) =
      0x210100000000000000000000000000000000000000000000000000000000000007#264 := by decide +kernel

/-- `MOD128 x, d` expands to DIV128TO128 (R60). -/
theorem test_pseudo_mod128 : (Pseudo.mod128 9 7).expand = .div128to128 9 7 := rfl

/-! ## One step per command, from reset, against the spec's vectors -/

/-- The response after the step that completes a placed command word. -/
def responds (w : Nat) : Option (Nat × Nat × Nat) :=
  match step (State.reset.withFetchWord 264 w) with
  | .next t => some (t.R.toNat, t.S.toNat, t.ILL.toNat)
  | _ => none

/-- V1: a carry reaches the high limb. -/
theorem test_add128_carry :
    responds 0x00000000000000000100000000000000050000000000000003FFFFFFFFFFFFFFFF =
      some (0x00000000000000050000000000000004, 0, 0) := by decide
/-- V31: 2^128 - 1 plus 1 wraps. -/
theorem test_add128_wraps :
    responds 0x00FFFFFFFFFFFFFFFFFFFFFFFFFFFFFFFF00000000000000000000000000000001 = some (0, 0, 0) := by decide
/-- V2: a borrow from the high limb. -/
theorem test_sub128_borrow :
    responds 0x010000000000000002000000000000000100000000000000010000000000000002 =
      some (0xFFFFFFFFFFFFFFFF, 0, 0) := by decide
/-- V43: the order of the operands. -/
theorem test_sub128_order :
    responds 0x010000000000000000000000000000000700000000000000070000000000000000 =
      some (0xFFFFFFFFFFFFFFF90000000000000007, 0, 0) := by decide
/-- V16: `B` all ones is ignored. -/
theorem test_inc128_ignores_b :
    responds 0x020000000000000005FFFFFFFFFFFFFFFFFFFFFFFFFFFFFFFFFFFFFFFFFFFFFFFF =
      some (0x00000000000000060000000000000000, 0, 0) := by decide
/-- V55: 0 - 1 wraps. -/
theorem test_dec128_wraps :
    responds 0x030000000000000000000000000000000000000000000000000000000000000000 =
      some (0xFFFFFFFFFFFFFFFFFFFFFFFFFFFFFFFF, 0, 0) := by decide
/-- V62: the largest product. -/
theorem test_mul64w_largest :
    responds 0x100000000000000000FFFFFFFFFFFFFFFF0000000000000000FFFFFFFFFFFFFFFF =
      some (0xFFFFFFFFFFFFFFFE0000000000000001, 0, 0) := by decide
/-- V6. -/
theorem test_mul128x64_example :
    responds 0x110024924924924924924924924924924900000000000000000000000000000007 =
      some (0x00FFFFFFFFFFFFFFFFFFFFFFFFFFFFFF, 0, 0) := by decide
/-- V75: the largest operands wrap. -/
theorem test_mul128x64_wraps :
    responds 0x11FFFFFFFFFFFFFFFFFFFFFFFFFFFFFFFF0000000000000000FFFFFFFFFFFFFFFF =
      some (0xFFFFFFFFFFFFFFFF0000000000000001, 0, 0) := by decide
/-- V88: the largest legitimate quotient is no sentinel. -/
theorem test_div128to64_largest_quotient :
    responds 0x20FFFFFFFFFFFFFFFEFFFFFFFFFFFFFFFF0000000000000000FFFFFFFFFFFFFFFF =
      some (0xFFFFFFFFFFFFFFFF, 0xFFFFFFFFFFFFFFFE, 0) := by decide
/-- V84: `A.hi = d` is the sentinel. -/
theorem test_div128to64_sentinel :
    responds 0x200000000000000003000000000000000000000000000000000000000000000003 =
      some (0xFFFFFFFFFFFFFFFF, 0xFFFFFFFFFFFFFFFF, 0) := by decide
/-- V8. -/
theorem test_div128to128_example :
    responds 0x210100000000000000000000000000000000000000000000000000000000000007 =
      some (0x00249249249249249249249249249249, 1, 0) := by decide
/-- V106: a zero divisor, with a zero dividend too. -/
theorem test_div128to128_zero_divisor :
    responds 0x210000000000000000000000000000000000000000000000000000000000000000 =
      some (0xFFFFFFFFFFFFFFFFFFFFFFFFFFFFFFFF, 0xFFFFFFFFFFFFFFFF, 0) := by decide
/-- V119: the halved sum needs 65 bits and its low 64 are 0. -/
theorem test_sqrtIter_overflow :
    responds 0x30FFFFFFFFFFFFFFFFFFFFFFFFFFFFFFFF0000000000000000FFFFFFFFFFFFFFFF = some (0, 0, 0) := by decide
/-- V118: a zero estimate. -/
theorem test_sqrtIter_zero_estimate :
    responds 0x300000000000000000000000000000000500000000000000000000000000000000 =
      some (0xFFFFFFFFFFFFFFFF, 0, 0) := by decide
/-- V153: one above the floor, by the formulas (C1). -/
theorem test_isqrt_above_floor :
    responds 0x310000000000000000FFFFFFFFFFFFFFFF00000000000000000000000000000000 =
      some (0x0000000100000000, 0, 0) := by decide +kernel
/-- V162: a seed that is not the root. -/
theorem test_isqrt_refines :
    responds 0x310800000000000000000000000000303900000000000000000000000000000000 =
      some (0x2D413CCCFE779921, 0, 0) := by decide +kernel
/-- V125. -/
theorem test_cbrtIter_cycle :
    responds 0x320000000000000000000000000000001A00000000000000000000000000000002 = some (4, 0, 0) := by decide
/-- V139. -/
theorem test_cbrtIter_far :
    responds 0x3200C097CE7BC90715B34B9F10000000000000000000000000000000E8D4A51007 =
      some (0x000000E8D4A50FFC, 0, 0) := by decide
/-- V169: the cube root of zero. -/
theorem test_icbrt_zero :
    responds 0x330000000000000000000000000000000000000000000000000000000000000000 = some (0, 0, 0) := by decide
/-- V178: 999 from seed 9 ends one above the floor. -/
theorem test_icbrt_from_seed : icbrtFrom 999#128 9#64 = 10#64 := by decide +kernel
/-- V209: the low bits are dropped before the rounding. -/
theorem test_u128ToF64_drops :
    responds 0x400000000000000001000000000000080100000000000000000000000000000000 =
      some (0x43F0000000000000, 0, 0) := by decide
/-- V205: rounding of a low limb. -/
theorem test_u128ToF64_rounds :
    responds 0x400000000000000000FFFFFFFFFFFFFBFF00000000000000000000000000000000 =
      some (0x43EFFFFFFFFFFFFF, 0, 0) := by decide
/-- V221: overflow to +infinity. -/
theorem test_u128ToF32_infinity :
    responds 0x41FFFFFF8000000000000000000000000000000000000000000000000000000000 =
      some (0x7F800000, 0, 0) := by decide
/-- V201: a tie rounds to even. -/
theorem test_u128ToF32_tie :
    responds 0x410000000000000000000000000100000300000000000000000000000000000000 =
      some (0x4B800002, 0, 0) := by decide
/-- V14: 1000000.0 gives 2^19. -/
theorem test_f64ToU128_power :
    responds 0x420000000000000000412E84800000000000000000000000000000000000000000 =
      some (0x80000, 0, 0) := by decide +kernel
/-- V235: 2^128 is accepted and shifted out. -/
theorem test_f64ToU128_shifted_out :
    responds 0x42000000000000000047F000000000000000000000000000000000000000000000 = some (0, 0, 0) := by decide +kernel
/-- V20: `A.lo[63:32]`, `A.hi` and `B` all ones are ignored. -/
theorem test_f32ToU128_ignores :
    responds 0x43FFFFFFFFFFFFFFFFFFFFFFFF4B800000FFFFFFFFFFFFFFFFFFFFFFFFFFFFFFFF =
      some (0x1000000, 0, 0) := by decide
/-- V260: just below 1. -/
theorem test_f32ToU128_below_one :
    responds 0x4300000000000000000000000003F7FFFF00000000000000000000000000000000 = some (0, 0, 0) := by decide
/-- V29: a reserved op code. -/
theorem test_reserved :
    responds 0xFF0000000000000000000000000000000500000000000000000000000000000007 =
      some (0xFFFFFFFFFFFFFFFFFFFFFFFFFFFFFFFF, 0xFFFFFFFFFFFFFFFF, 1) := by decide

/-- Trace 2 of the divider: both digits corrected (95_test_vectors.md section 5). -/
theorem test_longDivide_trace2 :
    quotientDigit 0x80000000FFFFFFFF#64 0x80000000FFFFFFFE#64 0 = (0xFFFFFFFF, 0x7FFFFFFFFFFFFFFF#64) ∧
      longDivide 0x80000000FFFFFFFE0000000000000000#128 0x80000000FFFFFFFF#64 =
        (0xFFFFFFFFFFFFFFFE#64, 0x00000001FFFFFFFE#64) := by decide
/-- V166: the seed of the square root of 2^127. -/
theorem test_seedSqrt : seedSqrt 0x80000000000000000000000000000000#128 = 0xB504F333F9DE6800#64 := by decide +kernel
/-- The example of R72: the 32-bit signed scalar -2. -/
theorem test_fromSigned : fromSigned 32 0xFFFFFFFE#32 = .ok 0xFFFFFFFFFFFFFFFFFFFFFFFFFFFFFFFE#128 := by decide
/-- R72 and U19: a scalar of 96 bits is refused. -/
theorem test_fromUnsigned_refused : fromUnsigned 96 5#96 = .error (.unsupportedWidth 96) := by decide
/-- R72: a double-width integer splits into its halves. -/
theorem test_fromUnsigned_double :
    fromUnsigned 128 0x00000000000000070000000000000009#128 = .ok (pair 7 9) := by decide

/-! ## Edges of the handshake trace (95_test_vectors.md section 6) -/

/-- V8 with two edges to go, V21 presented: the lane is busy and V21 is not taken (edge 6). -/
def busyLane : State :=
  { State.reset with
    inFlight := some ⟨⟨0x21#8, 0x0100000000000000#64, 0, 0, 7⟩, 2⟩
    host := [Ports.present ⟨0x04#8, 0, 5, 0, 7⟩, Ports.reset] }

theorem test_edge6_waits :
    ∃ t, step busyLane = .next t ∧ t.outputs = busyLane.outputs ∧
      t.inFlight = some ⟨⟨0x21#8, 0x0100000000000000#64, 0, 0, 7⟩, 1⟩ :=
  ⟨_, rfl, by decide, by decide⟩

/-- V21 presented at V8's completing edge is not taken either (edge 7). -/
theorem test_edge7_completes :
    ∃ t, step { busyLane with inFlight := some ⟨⟨0x21#8, 0x0100000000000000#64, 0, 0, 7⟩, 1⟩ } = .next t ∧
      t.outputs = ⟨1#1, 1#1, 0x0024924924924924#64, 0x9249249249249249#64, 1#64, 0#1⟩ ∧ t.inFlight = none :=
  ⟨_, rfl, by decide, by decide +kernel⟩

/-- Reset of a busy lane discards the command (edge 9). -/
theorem test_edge9_reset :
    ∃ t, step { busyLane with host := [Ports.reset], R := 5, S := 1 } = .next t ∧
      t.outputs = ⟨1#1, 0#1, 0#64, 0#64, 0#64, 0#1⟩ :=
  ⟨_, rfl, by decide⟩

/-- The host notes the response at the pulse, and no value before it (R203, R35). -/
theorem test_observed_pulse :
    ∃ o, (Observed.mk { State.reset with inFlight := some ⟨⟨0x00#8, 0, 1, 0, 2⟩, 1⟩ } [⟨0x00#8, 0, 1, 0, 2⟩] []).edge Ports.idle =
        .next o ∧ o.known = some ⟨3, 0, 0⟩ ∧ o.pulses = 1 :=
  ⟨_, rfl, by decide, by decide⟩
/-- A reset begins the observation anew (R203). -/
theorem test_observed_reset :
    ∃ o, (Observed.mk State.reset [⟨0x00#8, 0, 1, 0, 2⟩] [⟨3, 0, 0⟩]).edge Ports.reset = .next o ∧ o.known = none ∧
      o.accepted = [] :=
  ⟨_, rfl, by decide, by decide⟩

/-! ## Witnesses: the hypotheses of the obligations can be met -/

/-- A busy lane one edge from completing `c`, no reset coming. -/
def due (c : Command) : State := { State.reset with inFlight := some ⟨c, 1⟩ }

theorem witness_resetEdge :
    ({ busyLane with host := [Ports.reset] } : State).portsNow.rst = true ∧ busyLane.inFlight ≠ none := by decide
theorem witness_responseChanges :
    ∃ t, step (due ⟨0x00#8, 0, 1, 0, 1⟩) = .next t ∧ t.response ≠ (due ⟨0x00#8, 0, 1, 0, 1⟩).response :=
  ⟨_, rfl, by decide⟩
theorem witness_busyChanges :
    ∃ s t, step s = .next t ∧ t.BUSY ≠ s.BUSY ∧ s.inFlight = none ∧ s.portsNow.cmdValid = true :=
  ⟨{ State.reset with host := [Ports.present ⟨0x00#8, 0, 1, 0, 1⟩] }, _, rfl, by decide, rfl, by decide⟩
theorem witness_resetDiscards :
    ∃ (s : State) (f : InFlight), s.inFlight = some f ∧ s.portsNow.rst = true ∧
      ∀ p ∈ s.host.tail.take 1, p.cmdValid = false :=
  ⟨{ busyLane with host := [Ports.reset] }, _, rfl, by decide, by decide⟩
theorem witness_ready :
    ∃ s : State, s.inFlight = none ∧ s.portsNow.rst = false ∧ s.portsNow.cmdValid = true :=
  ⟨{ State.reset with host := [Ports.present ⟨0x00#8, 0, 1, 0, 1⟩] }, by decide⟩
theorem witness_busy_waits : ∃ f, busyLane.inFlight = some f ∧ busyLane.portsNow.rst = false ∧ 1 < f.remaining :=
  ⟨_, rfl, by decide, by decide⟩
theorem witness_busy_completes :
    ∃ f, (due ⟨0x00#8, 0, 1, 0, 1⟩).inFlight = some f ∧ (due ⟨0x00#8, 0, 1, 0, 1⟩).portsNow.rst = false ∧ f.remaining ≤ 1 :=
  ⟨_, rfl, by decide, by decide⟩
theorem witness_idle :
    State.reset.inFlight = none ∧ State.reset.portsNow.rst = false ∧ State.reset.portsNow.cmdValid = false := by decide
theorem witness_stepRuns :
    ∃ f i, (due ⟨0x00#8, 0, 1, 0, 1⟩).portsNow.rst = false ∧ (due ⟨0x00#8, 0, 1, 0, 1⟩).inFlight = some f ∧
      f.remaining ≤ 1 ∧ decode f.cmd = .ok i ∧ i.wellFormed = true :=
  ⟨_, _, by decide, rfl, by decide, rfl, rfl⟩
theorem witness_tableWord :
    decodeTableWord 264 0x030000000000000000000000000000000000000000000000000000000000000000 = some (.dec128 0) := by decide
theorem witness_reserved :
    ∃ f, (due ⟨0x04#8, 0, 5, 0, 7⟩).portsNow.rst = false ∧ (due ⟨0x04#8, 0, 5, 0, 7⟩).inFlight = some f ∧
      f.remaining ≤ 1 ∧ reservedOp f.cmd.op = true :=
  ⟨_, by decide, rfl, by decide, by decide⟩
theorem witness_accepted (c : Command) :
    ∃ (s : State) (later : List Ports), s.inFlight = none ∧ s.host = Ports.present c :: later ∧
      (∀ p ∈ later.take (latency c), p.rst = false) ∧ later ≠ [] :=
  ⟨{ State.reset with host := [Ports.present c, Ports.present c] }, [Ports.present c], rfl, rfl,
    fun p hp => by
      have := List.mem_of_mem_take hp
      simp [Ports.present] at this
      simp [this],
    by simp⟩
/-- The reserved ranges at their ends, and the legal op codes beside them (R56). -/
theorem witness_reservedRanges :
    [0x04, 0x0F, 0x12, 0x1F, 0x22, 0x2F, 0x34, 0x3F, 0x44, 0x4F, 0x50, 0xFF].all (fun n => reservedOp (BitVec.ofNat 8 n)) ∧
      [0x00, 0x03, 0x10, 0x11, 0x20, 0x21, 0x30, 0x33, 0x40, 0x43].all (fun n => !reservedOp (BitVec.ofNat 8 n)) := by
  decide
theorem witness_ignoredBits :
    decodeWord 0x020000000000000005FFFFFFFFFFFFFFFF00000000000000000000000000000000#264 =
        .ok (.inc128 0x0000000000000005FFFFFFFFFFFFFFFF#128) ∧
      0x020000000000000005FFFFFFFFFFFFFFFF00000000000000000000000000000000#264 &&& Format.readMask .P =
        0x020000000000000005FFFFFFFFFFFFFFFFFFFFFFFFFFFFFFFFFFFFFFFFFFFFFFFF#264 &&& Format.readMask .P := by decide +kernel
theorem witness_staleBits :
    (Instr.isqrt 5).unit = .newtonRaphsonSqrtIter ∧ (Instr.isqrt 5).unit ≠ .longDivider128by64 := by decide
theorem witness_commandOpCodes :
    [0x00, 0x01, 0x02, 0x03, 0x10, 0x11, 0x20, 0x21, 0x30, 0x31, 0x32, 0x33, 0x40, 0x41, 0x42, 0x43].map
      (fun n => (Command.mk (BitVec.ofNat 8 n) 1 2 3 4).op.toNat) =
    [0x00, 0x01, 0x02, 0x03, 0x10, 0x11, 0x20, 0x21, 0x30, 0x31, 0x32, 0x33, 0x40, 0x41, 0x42, 0x43] := by decide
/-- Where the two arms of DIV128TO64 meet: `A.hi = d`, and `A.hi = d - 1`. -/
theorem witness_divArms :
    (3#64).toNat ≤ (hi 0x00000000000000030000000000000000#128).toNat ∧
      (hi 0x0000000000000002FFFFFFFFFFFFFFFF#128).toNat < (3#64).toNat := by decide
theorem witness_divisorNotZero : (7#64) ≠ 0 := by decide
theorem witness_digitEstimate :
    2 ^ 63 ≤ (0x80000000FFFFFFFF#64).toNat ∧ (0x80000000FFFFFFFE#64).toNat < (0x80000000FFFFFFFF#64).toNat ∧
      (0xFFFFFFFF : Nat) < 2 ^ 32 := by decide
theorem witness_rootOperand : (5#128) ≠ 0 := by decide
theorem witness_sqrtStepNoOverflow :
    (4#64) ≠ 0 ∧ ((4#64).toNat + (15#128).toNat / (4#64).toNat) / 2 < 2 ^ 64 ∧ 2 ≤ 4 ∧ 4 < 2 ^ 64 := by decide
/-- Radicand 15, floor 3, and 16 is a square; radicand 17, floor 4, and 18 is none. -/
theorem witness_floorSeed :
    (15#128) ≠ 0 ∧ (15#128).toNat < Config.SQRT_CEILING ∧ (3#64).toNat = Nat.sqrt (15#128).toNat ∧
      (4#64).toNat = Nat.sqrt (15#128).toNat + 1 ∧ (4#64).toNat = Nat.sqrt (17#128).toNat ∧
      ∀ k, (17#128).toNat + 1 ≠ k ^ 2 := by
  refine ⟨by decide, by decide, by norm_num, by norm_num, by norm_num, fun k hk => ?_⟩
  have h1 : 18 = k ^ 2 := by simpa using hk
  have h2 : k < 5 := by nlinarith
  interval_cases k <;> omega
theorem witness_perfectCube : 1 ≤ 10 ∧ 10 ^ 3 < 2 ^ 128 := by decide
theorem witness_f32Arms :
    0xFFFFFF8000000000 ≤ (hi 0xFFFFFF80000000000000000000000000#128).toNat ∧
      (hi 0xFFFFFF7FFFFFFFFFFFFFFFFFFFFFFFFF#128).toNat < 0xFFFFFF8000000000 := by decide
theorem witness_monotone : (1#128) ≤ (2#128) := by decide
theorem witness_exact : (16777215#128).toNat < 2 ^ 24 ∧ (9007199254740991#128).toNat < 2 ^ 53 := by decide
theorem witness_castDivisor : 0 < 4 := by decide
theorem witness_leadingZeros : (1#64) ≠ 0 := by decide
theorem witness_scalarWidth : 64 ≤ 64 ∧ 64 < 65 ∧ 65 ≠ 128 := by decide
theorem witness_invariant : State.reset.Inv ∧ ∃ t, step State.reset = .next t := by
  refine ⟨⟨by decide, by decide, by decide, fun f hf => by cases hf⟩, _, rfl⟩
/-- An idle lane and a busy one, side by side. -/
theorem witness_lanes :
    ∃ b₁ b₂ : Block, stepLane 0 [State.reset, busyLane] = .next b₁ ∧ stepLane 1 b₁ = .next b₂ :=
  ⟨_, _, rfl, rfl⟩
theorem witness_sharedReset :
    (∀ s ∈ [{ busyLane with host := [Ports.reset] }, { State.reset with host := [Ports.reset] }], s.portsNow.rst = true) ∧
      ∃ b', stepAll [State.reset, busyLane] = .next b' :=
  ⟨by decide, _, rfl⟩

end Sys2Proof.Tests
end

section
/-!
The cast's rounding: what `roundDiv` can answer, and how far its multiple of the divisor is from the dividend.
-/
namespace Sys2Proof.Machine

/-- All that `roundDiv` can answer: the quotient when the remainder is below half of the divisor, its successor when the remainder
is above, and at exactly half whichever of the two is even. -/
theorem roundDiv_cases (n d : Nat) :
    (2 * (n % d) ≤ d ∧ roundDiv n d = n / d ∧ (2 * (n % d) = d → roundDiv n d % 2 = 0)) ∨
    (d ≤ 2 * (n % d) ∧ roundDiv n d = n / d + 1 ∧ (2 * (n % d) = d → roundDiv n d % 2 = 0)) := by
  by_cases hup : d < 2 * (n % d) ∨ (2 * (n % d) = d ∧ n / d % 2 = 1)
  · have hround : roundDiv n d = n / d + 1 := if_pos hup
    exact .inr ⟨by omega, hround, by omega⟩
  · have hround : roundDiv n d = n / d := if_neg hup
    exact .inl ⟨by omega, hround, by omega⟩

/-- The rounded multiple lies below `n` by the remainder, or above it by what the remainder lacks of `d`; either distance is at
most half of `d`, and `roundDiv n d` is even when the remainder is half. -/
theorem roundDiv_mul_cases (n d : Nat) :
    (2 * (n % d) ≤ d ∧ roundDiv n d * d + n % d = n ∧ (2 * (n % d) = d → roundDiv n d % 2 = 0)) ∨
    (d ≤ 2 * (n % d) ∧ roundDiv n d * d + n % d = n + d ∧ (2 * (n % d) = d → roundDiv n d % 2 = 0)) := by
  have hdiv : n / d * d + n % d = n := Nat.div_add_mod' n d
  obtain ⟨hhalf, hround, heven⟩ | ⟨hhalf, hround, heven⟩ := roundDiv_cases n d
  · exact .inl ⟨hhalf, by rw [hround, hdiv], heven⟩
  · have hsucc : (n / d + 1) * d = n / d * d + d := Nat.succ_mul (n / d) d
    exact .inr ⟨hhalf, by rw [hround, hsucc]; omega, heven⟩

/-- Settles O49: rounding down misses `n` by the remainder, rounding up by the rest of `d`, and a miss of exactly half of `d` is in
both cases a remainder of half. -/
theorem castRoundsToNearestTiesToEven : Obligations.CastRoundsToNearestTiesToEven := by
  unfold Obligations.CastRoundsToNearestTiesToEven
  intro n d hd
  have hrem : n % d < d := Nat.mod_lt n hd
  obtain ⟨hhalf, hmul, heven⟩ | ⟨hhalf, hmul, heven⟩ := roundDiv_mul_cases n d
  · exact ⟨by omega, by omega, fun htie => heven (by omega)⟩
  · exact ⟨by omega, by omega, fun htie => heven (by omega)⟩

end Sys2Proof.Machine
end

section
/-!
One rising edge, an equation for each thing it can do (10_state.md R31 to R33); and what it does to `rsp_valid` and to the schedule.
-/
namespace Sys2Proof.Machine

variable {s t : State} {f : InFlight} {i : Instr}

/-- A ready lane to which nothing is presented. -/
theorem step_of_idle (hrst : s.portsNow.rst = false) (hf : s.inFlight = none) (hv : s.portsNow.cmdValid = false) :
    step s = .next (nextEdge s) := by
  simp [step, clockEdge, hrst, hf, hv]

/-- A ready lane to which a command is presented. -/
theorem step_of_accept (hrst : s.portsNow.rst = false) (hf : s.inFlight = none) (hv : s.portsNow.cmdValid = true) :
    step s = .next (accept s.portsNow.cmd (nextEdge s)) := by
  simp [step, clockEdge, hrst, hf, hv]

/-- A busy lane before its last edge. -/
theorem step_of_wait (hrst : s.portsNow.rst = false) (hf : s.inFlight = some f) (hn : 1 < f.remaining) :
    step s = .next (countDown f (nextEdge s)) := by
  simp [step, clockEdge, hrst, hf, Nat.not_le.2 hn]

/-- A busy lane at its last edge. -/
theorem step_of_due (hrst : s.portsNow.rst = false) (hf : s.inFlight = some f) (hn : f.remaining ≤ 1) :
    step s = runCommand f.cmd (nextEdge s) := by
  simp [step, clockEdge, hrst, hf, hn]

/-- A command that decodes completes by `exec`. -/
theorem runCommand_of_decode_ok {c : Command} (h : decode c = .ok i) (s : State) : runCommand c s = exec i s := by
  simp [runCommand, h]

/-- The completing edge of a command that decodes. -/
theorem step_of_due_of_decode_ok (hrst : s.portsNow.rst = false) (hf : s.inFlight = some f) (hn : f.remaining ≤ 1)
    (hd : decode f.cmd = .ok i) : step s = exec i (nextEdge s) := by
  rw [step_of_due hrst hf hn, runCommand_of_decode_ok hd]

/-- Only a completion raises `rsp_valid`, so a ready lane shows it in the present cycle only (R33). -/
theorem rspValid_of_step_of_ready (hf : s.inFlight = none) (h : step s = .next t) : t.rspValid = false := by
  obtain ⟨-, rfl⟩ | ⟨-, -, -, rfl⟩ | ⟨-, -, -, rfl⟩ | ⟨f, -, hsome, -⟩ | ⟨f, -, hsome, -⟩ := step_cases h
  · rfl
  · rfl
  · rfl
  · exact absurd (hf.symm.trans hsome) (by simp)
  · exact absurd (hf.symm.trans hsome) (by simp)

/-- A schedule without a reset at the next `k + 1` edges has none now and none at the `k` edges after. -/
theorem noReset_now_and_later {k : Nat} (h : ∀ p ∈ s.host.take (k + 1), p.rst = false) :
    s.portsNow.rst = false ∧ ∀ p ∈ s.host.tail.take k, p.rst = false := by
  cases hs : s.host with
  | nil => simp [State.portsNow, hs, Ports.idle]
  | cons p ps => simpa [State.portsNow, hs] using h

/-- The edge after `k` others of a schedule that has no reset at its first `k + 1`. -/
theorem noReset_of_drop {later : List Ports} {k : Nat} (hhost : s.host = later.drop k)
    (hrst : ∀ p ∈ later.take (k + 1), p.rst = false) : s.portsNow.rst = false := by
  have hhead : ∀ p ∈ s.host.take 1, p.rst = false := by
    intro p hp
    rw [hhost, List.take_drop] at hp
    exact hrst p (List.mem_of_mem_drop hp)
  exact (noReset_now_and_later hhead).1

end Sys2Proof.Machine
end

section
/-!
The invariant (`State.Inv`): each register operation gives a state that has it, and so does each rising edge.
-/
namespace Sys2Proof.Machine

variable {s t : State} {f : InFlight} {c : Command}

theorem zero_ne_sentinel64 : (0 : W64) ≠ Config.SENTINEL64 := by decide

/-- The remainder of a division that does not overflow is below the divisor, so it is never the sentinel (43_division.md R112). -/
theorem div128to64_quotient_of_remainder_sentinel {x : W128} {d : W64} (h : (div128to64 x d).2 = Config.SENTINEL64) :
    (div128to64 x d).1 = Config.SENTINEL64 := by
  by_cases hd : d ≤ hi x
  · rw [div128to64_of_le hd]
  · have hlt : hi x < d := BitVec.not_le.1 hd
    have hpos : 0 < d.toNat := Nat.zero_lt_of_lt hlt
    have hrem : val x % d.toNat < d.toNat := Nat.mod_lt _ hpos
    have hnat : val x % d.toNat % 2 ^ 64 = 2 ^ 64 - 1 := by
      simpa [div128to64_of_lt hlt, Config.SENTINEL64] using congrArg BitVec.toNat h
    have := d.isLt
    omega

/-- The same of the two-limb division, whose low limb is a `div128to64` or the sentinel of a zero divisor (R118, R120). -/
theorem div128to128_lo_of_remainder_sentinel {x : W128} {d : W64} (h : (div128to128 x d).2 = Config.SENTINEL64) :
    lo (div128to128 x d).1 = Config.SENTINEL64 := by
  by_cases hd : d = 0
  · rw [hd]
    exact lo_pair _ _
  · simp only [div128to128, if_neg hd, lo_pair] at h ⊢
    exact div128to64_quotient_of_remainder_sentinel h

/-- A legal command's secondary result is the sentinel only beside the sentinel in `R.lo`: outside the divider it is 0
(70_reset_and_hazards.md R196). -/
theorem exec_completes_with_paired_sentinel (i : Instr) :
    ∃ r : Response, r.ILL = illLegal ∧ (r.S = Config.SENTINEL64 → lo r.R = Config.SENTINEL64) ∧
      ∀ s, exec i s = .next (complete r s) := by
  cases i with
  | div128to64 a d =>
    exact ⟨_, rfl, fun h => (lo_pair _ _).trans (div128to64_quotient_of_remainder_sentinel h), fun _ => rfl⟩
  | div128to128 a d => exact ⟨_, rfl, div128to128_lo_of_remainder_sentinel, fun _ => rfl⟩
  | _ => exact ⟨_, rfl, fun h => absurd h zero_ne_sentinel64, fun _ => rfl⟩

/-- `ILL`, `S` and `rsp_valid` are zero and nothing is in flight, so every clause holds for want of a case. -/
theorem inv_reset : State.reset.Inv := ⟨by decide, by decide, by decide, by simp [State.reset]⟩

/-- The invariant does not read the host's schedule, the one field in which a lane just reset differs from `State.reset`. -/
theorem inv_resetLane (s : State) : (resetLane s).Inv := inv_reset

/-- `rsp_valid` falls; the rest of the invariant does not see the edge pass. -/
theorem inv_nextEdge (hs : s.Inv) : (nextEdge s).Inv := by
  obtain ⟨hill, hsent, -, hgo⟩ := hs
  exact ⟨hill, hsent, by simp, hgo⟩

theorem inv_accept (hs : s.Inv) (hv : s.rspValid = false) : (accept c s).Inv := by
  obtain ⟨hill, hsent, -, -⟩ := hs
  exact ⟨hill, hsent, by simp [hv], by simp [latency_pos]⟩

theorem inv_countDown (hs : s.Inv) (hv : s.rspValid = false) (hn : 1 < f.remaining) : (countDown f s).Inv := by
  obtain ⟨hill, hsent, -, -⟩ := hs
  exact ⟨hill, hsent, by simp [hv], by simp [Nat.le_sub_one_of_lt hn]⟩

/-- A completion writes every register the invariant reads, so nothing is asked of the state before it. -/
theorem inv_complete {r : Response} (hill : r.ILL = illLegal) (hsent : r.S = Config.SENTINEL64 → lo r.R = Config.SENTINEL64) :
    (complete r s).Inv :=
  ⟨by simp [hill, illLegal], hsent, fun _ => rfl, by simp⟩

theorem inv_completeReserved : (completeReserved s).Inv :=
  ⟨fun _ => ⟨rfl, rfl, rfl⟩, fun _ => lo_pair _ _, fun _ => rfl, by simp⟩

theorem inv_of_runCommand (h : runCommand c s = .next t) : t.Inv := by
  cases hd : decode c with
  | ok i =>
    obtain ⟨r, hill, hsent, hexec⟩ := exec_completes_with_paired_sentinel i
    rw [runCommand_of_decode_ok hd, hexec] at h
    cases h
    exact inv_complete hill hsent
  | error e =>
    simp only [runCommand, hd] at h
    cases h
    exact inv_completeReserved

/-- Settles O58: by what one edge can do; the waiting edges carry the registers over, and every other edge writes them all. -/
theorem everyStepKeepsTheInvariant : Obligations.EveryStepKeepsTheInvariant := by
  unfold Obligations.EveryStepKeepsTheInvariant
  intro s t hs h
  have hedge := inv_nextEdge hs
  obtain ⟨-, rfl⟩ | ⟨-, -, -, rfl⟩ | ⟨-, -, -, rfl⟩ | ⟨f, -, -, hn, rfl⟩ | ⟨f, -, -, -, hrun⟩ := step_cases h
  · exact inv_resetLane _
  · exact hedge
  · exact inv_accept hedge rfl
  · exact inv_countDown hedge rfl hn
  · exact inv_of_runCommand hrun

/-- Settles O57: the values after reset meet each clause. -/
theorem invariantHoldsAtReset : Obligations.InvariantHoldsAtReset := inv_reset

end Sys2Proof.Machine
end

section
/-!
An accepted command (10_state.md R33): what its completion answers, and how long it waits.
-/
namespace Sys2Proof.Machine

variable {s : State} {f : InFlight} {c : Command}

/-- A legal op code completes with the response of R57; a reserved one with the response of R56, and marks the run. The cases are
the rows of R57: sixteen op codes, and the last row for the rest. -/
theorem runCommand_completes (c : Command) (s : State) :
    runCommand c s = .next (complete (respond c) s) ∨
      (runCommand c s = .next (completeReserved s) ∧ respond c = respondReserved) := by
  unfold respond
  split
  case h_17 => exact .inr ⟨by simp [runCommand, decode, *], rfl⟩
  all_goals
    next hop =>
      left
      simp [runCommand, decode, hop]
      rfl

/-- What a completion shows: the response of R57, a ready lane, the `rsp_valid` pulse; and the host's schedule goes on. -/
theorem exists_runCommand_eq (c : Command) (s : State) :
    ∃ t, runCommand c s = .next t ∧ t.response = respond c ∧ t.inFlight = none ∧ t.rspValid = true ∧ t.host = s.host := by
  obtain hrun | ⟨hrun, hresp⟩ := runCommand_completes c s
  · exact ⟨_, hrun, rfl, rfl, rfl, rfl⟩
  · exact ⟨_, hrun, hresp.symm, rfl, rfl, rfl⟩

/-- `k` edges of a busy lane with more than `k` to go: only the countdown and the host's schedule move. -/
theorem run_of_wait (k : Nat) (hf : s.inFlight = some f) (hk : k < f.remaining) (hv : s.rspValid = false)
    (hrst : ∀ p ∈ s.host.take k, p.rst = false) :
    Sys2Proof.core.run k s =
      .next { s with inFlight := some ⟨f.cmd, f.remaining - k⟩, host := s.host.drop k } := by
  induction k generalizing s f with
  | zero => simp [← hf]
  | succ k ih =>
    obtain ⟨hnow, hlater⟩ := noReset_now_and_later hrst
    have hstep : step s = .next (countDown f (nextEdge s)) := step_of_wait hnow hf (by omega)
    rw [run_succ_of_step hstep, ih (f := ⟨f.cmd, f.remaining - 1⟩) rfl (Nat.lt_sub_of_add_lt hk) rfl hlater]
    simp [countDown, nextEdge, hv, Nat.sub_sub, Nat.add_comm 1 k]

/-- A lane that accepted `c` and has let `k` more edges pass, with `later` scheduled after the acceptance. -/
def waiting (c : Command) (k : Nat) (later : List Ports) (s : State) : State :=
  { s with inFlight := some ⟨c, latency c - k⟩, host := later.drop k, rspValid := false }

@[simp] theorem waiting_host (c : Command) (k : Nat) (later : List Ports) (s : State) :
    (waiting c k later s).host = later.drop k := rfl

/-- The acceptance edge and `k` more leave the lane waiting, while `k` is below `LAT`. -/
theorem run_of_accept {later : List Ports} {k : Nat} (hf : s.inFlight = none) (hhost : s.host = Ports.present c :: later)
    (hk : k < latency c) (hrst : ∀ p ∈ later.take k, p.rst = false) :
    Sys2Proof.core.run (k + 1) s = .next (waiting c k later s) := by
  have hports : s.portsNow = Ports.present c := by simp [State.portsNow, hhost]
  have hstep : step s = .next (accept c (nextEdge s)) := by
    rw [step_of_accept (by rw [hports]; rfl) hf (by rw [hports]; rfl), hports]
    rfl
  have hlater : (accept c (nextEdge s)).host = later := by simp [hhost]
  rw [run_succ_of_step hstep, run_of_wait k (accept_inFlight c _) hk rfl (by rwa [hlater]), hlater]
  rfl

/-- The completing edge: it takes no command and shows the response for the one cycle that follows. -/
theorem exists_step_of_due (hrst : s.portsNow.rst = false) (hf : s.inFlight = some f) (hn : f.remaining ≤ 1) :
    ∃ t, step s = .next t ∧ t.response = respond f.cmd ∧ t.inFlight = none ∧ t.rspValid = true ∧ t.host = s.host.tail := by
  rw [step_of_due hrst hf hn]
  exact exists_runCommand_eq f.cmd (nextEdge s)

/-- Settles O8: acceptance, the wait by induction on its edges, and the completion of the command at the last of them. -/
theorem acceptedCommandCompletesAtItsLatency : Obligations.AcceptedCommandCompletesAtItsLatency := by
  unfold Obligations.AcceptedCommandCompletesAtItsLatency
  intro s c later hf hhost hrst
  have hwait : ∀ k, k < latency c → ∀ p ∈ later.take k, p.rst = false := fun k hk p hp =>
    hrst p (List.take_subset_take_left later hk.le hp)
  constructor
  · intro k hk hle
    obtain ⟨k, rfl⟩ := Nat.exists_eq_add_of_le' hk
    exact ⟨_, run_of_accept hf hhost hle (hwait k hle), rfl, rfl, rfl⟩
  · obtain ⟨k, hlat⟩ := Nat.exists_eq_add_of_le' (latency_pos c)
    have hlast : k < latency c := by omega
    have hrun := run_of_accept hf hhost hlast (hwait k hlast)
    obtain ⟨t, hstep, hresp, hready, hpulse, hlater⟩ :=
      exists_step_of_due (noReset_of_drop (waiting_host c k later s) (hlat ▸ hrst)) rfl (by simp [hlat])
    have hbusy : t.BUSY = 0#1 := by simp [State.BUSY, hready]
    refine ⟨t, ?_, hresp, hbusy, hpulse, ?_, fun u => rspValid_of_step_of_ready hready⟩
    · rw [hlat]
      exact run_succ_of_run hrun hstep
    · rw [hlater, waiting_host, List.tail_drop, hlat]

end Sys2Proof.Machine
end

section
/-!
The statements about single edges and completions: the values after reset, acceptance and waiting, the completing edge and what it
leaves alone.
-/
namespace Sys2Proof.Machine

open Sys2Proof.Claims

variable {i : Instr}

/-- A completion with `ILL = 0` is the frame of a legal command. -/
theorem complete_eq_afterLegal {r : Response} (hill : r.ILL = illLegal) (s : State) :
    complete r s = afterLegal s r.R r.S := by
  simp [complete, afterLegal, hill, illLegal]

/-- Settles O19: the response does not depend on the state, and a completion writes nothing beside it. -/
theorem legalCommandFrame : Obligations.LegalCommandFrame := by
  unfold Obligations.LegalCommandFrame
  intro i s
  obtain ⟨r, hill, hexec⟩ := exec_completes i
  have hframe (s : State) : exec i s = .next (afterLegal s r.R r.S) := by
    rw [hexec s, complete_eq_afterLegal hill]
  exact ⟨r.R, r.S, hframe s, hframe⟩

/-- Settles O1: the values of `State.reset` themselves. -/
theorem resetLeavesEveryRegisterZero : Obligations.ResetLeavesEveryRegisterZero := by
  unfold Obligations.ResetLeavesEveryRegisterZero
  decide

/-- Settles O4: a case each for acceptance, waiting and the completing edge. -/
theorem readyLaneAcceptsAndBusyLaneDoesNot : Obligations.ReadyLaneAcceptsAndBusyLaneDoesNot := by
  unfold Obligations.ReadyLaneAcceptsAndBusyLaneDoesNot
  refine ⟨fun s hf hrst hv => step_of_accept hrst hf hv, fun s f hf hrst hn => step_of_wait hrst hf hn, ?_⟩
  intro s f hf hrst hn
  obtain ⟨t, hstep, -, hready, -⟩ := exists_step_of_due hrst hf hn
  exact ⟨t, hstep, hready⟩

/-- Settles O5: `edgePassed` is what `nextEdge` does. -/
theorem idleLaneHoldsItsRegisters : Obligations.IdleLaneHoldsItsRegisters := by
  unfold Obligations.IdleLaneHoldsItsRegisters
  exact fun s hf hrst hv => step_of_idle hrst hf hv

theorem decodeTableWord_eq_some {nbits w : Nat} : decodeTableWord nbits w = some i ↔ decode (tableCommand nbits w) = .ok i := by
  cases h : decode (tableCommand nbits w) <;> simp [decodeTableWord, h]

/-- Settles O6: well-formedness is not needed, decoding is enough; a placed command is one whose completing edge has come. -/
theorem stepRunsTheDecodedInstruction : Obligations.StepRunsTheDecodedInstruction := by
  unfold Obligations.StepRunsTheDecodedInstruction
  constructor
  · intro s f i hrst hf hn hd _
    exact step_of_due_of_decode_ok hrst hf hn hd
  · intro s nbits w i hw
    exact step_of_due_of_decode_ok (placeCommand_portsNow_rst _ s) rfl le_rfl (decodeTableWord_eq_some.1 hw)

end Sys2Proof.Machine
end

section
/-!
Lanes and command words (20_memory.md R45, R48): a command word's response is `respond` of it, and a step of a lane writes one
place of the block from what stood in that place.
-/
namespace Sys2Proof.Machine

variable {b b' : Block} {k j : Nat}

/-- Settles O17: the one response is that of R57, which takes no state. -/
theorem responseDependsOnTheCommandAlone : Obligations.ResponseDependsOnTheCommandAlone := by
  unfold Obligations.ResponseDependsOnTheCommandAlone
  intro w
  refine ⟨respond (Command.ofWord w), fun s => ?_⟩
  obtain ⟨t, hrun, hresp, -⟩ := exists_runCommand_eq (Command.ofWord w) s
  exact ⟨t, hrun, hresp⟩

/-- All that `stepLane` can do. A place outside the block is covered too: nothing stands there to step, and writing there changes
nothing, so any `t` will do. -/
theorem stepLane_eq_next_iff :
    stepLane k b = .next b' ↔ ∃ t, (∀ s, b[k]? = some s → step s = .next t) ∧ b' = b.set k t := by
  cases hk : b[k]? with
  | none =>
    have hset (t : State) : b.set k t = b := List.set_eq_of_length_le (List.getElem?_eq_none_iff.1 hk)
    have hany : Nonempty State := ⟨State.reset⟩
    simp [stepLane, hk, hset, eq_comm]
  | some s =>
    rw [stepLane_of_getElem hk]
    cases hs : step s <;> simp [putLane, hs, eq_comm]

/-- A step of lane `k` changes no lane but `k`. -/
theorem getElem?_of_stepLane_of_ne (h : stepLane k b = .next b') (hne : j ≠ k) : b'[j]? = b[j]? := by
  obtain ⟨t, -, rfl⟩ := stepLane_eq_next_iff.1 h
  exact List.getElem?_set_ne hne.symm

/-- Settles O59: each lane steps from what stands in its own place, which the other leaves alone, and writes to two places
commute. -/
theorem lanesDoNotInterfere : Obligations.LanesDoNotInterfere := by
  unfold Obligations.LanesDoNotInterfere
  refine ⟨fun b b' k j => getElem?_of_stepLane_of_ne, fun b b₁ b₂ k j hne hk hj => ?_⟩
  have hsame : b₁[j]? = b[j]? := getElem?_of_stepLane_of_ne hk hne.symm
  obtain ⟨t, ht, rfl⟩ := stepLane_eq_next_iff.1 hk
  obtain ⟨u, hu, rfl⟩ := stepLane_eq_next_iff.1 hj
  rw [hsame] at hu
  have hfirst : stepLane j b = .next (b.set j u) := stepLane_eq_next_iff.2 ⟨u, hu, rfl⟩
  rw [← getElem?_of_stepLane_of_ne hfirst hne] at ht
  exact ⟨b.set j u, hfirst, stepLane_eq_next_iff.2 ⟨t, ht, List.set_comm t u hne⟩⟩

end Sys2Proof.Machine
end

section
/-!
Decoding and encoding (30_encoding.md R50 to R56): which op codes decode, and which bits of a command word the instruction keeps.
-/
namespace Sys2Proof

open Machine

variable {c : Command} {i : Instr}

/-- The table of R54 gives a format to exactly the op codes outside the ranges of R56. -/
theorem ofOp_eq_none_iff {op : W8} : Format.ofOp op = none ↔ reservedOp op = true := by
  revert op
  decide

theorem ofOp_encode_op (i : Instr) : Format.ofOp (encode i).op = some i.format := by
  cases i <;> rfl

/-- The rows of R54 are legal op codes, so a reserved one reaches the last arm. -/
theorem decode_of_reserved (h : reservedOp c.op = true) : decode c = .error (.reservedOpCode c.op) := by
  unfold decode
  split
  case h_17 => rfl
  all_goals
    next hop =>
      rw [hop] at h
      exact absurd h (by decide)

/-- The last arm takes only op codes to which the table gives no format. -/
theorem exists_decode_eq_ok (h : reservedOp c.op = false) : ∃ i, decode c = .ok i := by
  unfold decode
  split
  case h_17 =>
    have hnone : Format.ofOp c.op = none := by simp_all [Format.ofOp]
    exact absurd (ofOp_eq_none_iff.1 hnone) (by simp [h])
  all_goals exact ⟨_, rfl⟩

/-- The command without the bits its format ignores: what an assembler would have written (R55). -/
def Format.kept (f : Format) (c : Command) : Command := Command.ofWord (c.toWord &&& f.readMask)

@[simp] theorem toWord_kept (f : Format) (c : Command) : (f.kept c).toWord = c.toWord &&& f.readMask :=
  Command.toWord_ofWord _

/-- `Format.readMask` field by field (R51, R52). -/
def Format.fieldMask : Format → Command
  | .PP => ⟨.allOnes _, .allOnes _, .allOnes _, .allOnes _, .allOnes _⟩
  | .PW => ⟨.allOnes _, .allOnes _, .allOnes _, 0#64, .allOnes _⟩
  | .WW => ⟨.allOnes _, 0#64, .allOnes _, 0#64, .allOnes _⟩
  | .P => ⟨.allOnes _, .allOnes _, .allOnes _, 0#64, 0#64⟩
  | .D => ⟨.allOnes _, 0#64, .allOnes _, 0#64, 0#64⟩
  | .F => ⟨.allOnes _, 0#64, 0xFFFFFFFF#64, 0#64, 0#64⟩

theorem ofWord_readMask (f : Format) : Command.ofWord f.readMask = f.fieldMask := by
  cases f <;> decide +kernel

/-- A mask acts on each field by itself. -/
theorem kept_eq_and_fieldMask (f : Format) (c : Command) :
    f.kept c = ⟨c.op &&& f.fieldMask.op, c.aHi &&& f.fieldMask.aHi, c.aLo &&& f.fieldMask.aLo, c.bHi &&& f.fieldMask.bHi,
      c.bLo &&& f.fieldMask.bLo⟩ := by
  have hc : Command.ofWord c.toWord = c := Command.ofWord_toWord c
  conv_rhs => rw [← ofWord_readMask f, ← hc]
  simp only [Format.kept, Command.ofWord, BitVec.extractLsb'_and]

/-- Masking a limb to its low half-word is reading the half-word and extending it with zeros (45_conversion.md R145). -/
theorem and_lowHalf (w : W64) : w &&& 0xFFFFFFFF#64 = zext64 (w.extractLsb' 0 32) := by
  have hmod : w.toNat &&& 4294967295 = w.toNat % 4294967296 := Nat.and_two_pow_sub_one_eq_mod w.toNat 32
  apply BitVec.eq_of_toNat_eq
  simp only [zext64, BitVec.toNat_and, BitVec.toNat_setWidth, BitVec.extractLsb'_toNat, BitVec.toNat_ofNat,
    Nat.shiftRight_zero, Nat.reducePow, Nat.reduceMod, hmod]
  omega

/-! The fields each format keeps (R52). -/

@[simp] theorem kept_PP (c : Command) : Format.PP.kept c = c := by
  simp only [kept_eq_and_fieldMask, Format.fieldMask, BitVec.and_allOnes]

@[simp] theorem kept_PW (c : Command) : Format.PW.kept c = { c with bHi := 0#64 } := by
  simp only [kept_eq_and_fieldMask, Format.fieldMask, BitVec.and_allOnes, BitVec.and_zero]

@[simp] theorem kept_WW (c : Command) : Format.WW.kept c = { c with aHi := 0#64, bHi := 0#64 } := by
  simp only [kept_eq_and_fieldMask, Format.fieldMask, BitVec.and_allOnes, BitVec.and_zero]

@[simp] theorem kept_P (c : Command) : Format.P.kept c = { c with bHi := 0#64, bLo := 0#64 } := by
  simp only [kept_eq_and_fieldMask, Format.fieldMask, BitVec.and_allOnes, BitVec.and_zero]

@[simp] theorem kept_D (c : Command) : Format.D.kept c = { c with aHi := 0#64, bHi := 0#64, bLo := 0#64 } := by
  simp only [kept_eq_and_fieldMask, Format.fieldMask, BitVec.and_allOnes, BitVec.and_zero]

@[simp] theorem kept_F (c : Command) :
    Format.F.kept c = { c with aHi := 0#64, aLo := zext64 (operandF32 c), bHi := 0#64, bLo := 0#64 } := by
  simp only [kept_eq_and_fieldMask, Format.fieldMask, BitVec.and_allOnes, BitVec.and_zero, and_lowHalf, operandF32]

@[simp] theorem kept_op (f : Format) (c : Command) : (f.kept c).op = c.op := by
  cases f <;> simp

@[simp] theorem decode_encode (i : Instr) : decode (encode i) = .ok i := by
  cases i <;> simp [encode, decode, operandA, operandB, operandF32]

theorem encode_injective : Function.Injective encode := fun i j h => by
  simpa using congrArg decode h

/-- The instruction holds all that its format reads and nothing else. -/
theorem encode_of_decode (h : decode c = .ok i) : encode i = i.format.kept c := by
  obtain ⟨op, aHi, aLo, bHi, bLo⟩ := c
  unfold decode at h
  split at h
  case h_17 => cases h
  all_goals
    next hop =>
      cases h
      simp_all [encode, Instr.format]

/-- The op code of a command that decodes selects the format of its instruction. -/
theorem ofOp_of_decode (h : decode c = .ok i) : Format.ofOp c.op = some i.format := by
  rw [← ofOp_encode_op i, encode_of_decode h, kept_op]

/-- The encoding has nothing for a mask to remove. -/
@[simp] theorem kept_encode (i : Instr) : i.format.kept (encode i) = encode i :=
  (encode_of_decode (decode_encode i)).symm

/-- A command decodes to the instruction whose encoding is the bits it keeps. -/
theorem decode_of_kept (h : i.format.kept c = encode i) : decode c = .ok i := by
  have hformat : Format.ofOp c.op = some i.format := by rw [← ofOp_encode_op i, ← h, kept_op]
  have hlegal : reservedOp c.op = false := by
    rw [← Bool.not_eq_true, ← ofOp_eq_none_iff, hformat]
    simp
  obtain ⟨j, hj⟩ := exists_decode_eq_ok hlegal
  have hsame : j.format = i.format := Option.some_inj.1 ((ofOp_of_decode hj).symm.trans hformat)
  have hencode : encode j = encode i := by rw [encode_of_decode hj, hsame, h]
  rw [hj, encode_injective hencode]

/-- Settles O12: decoding undoes encoding for each constructor, and the word of a command holds its fields. -/
theorem decodeOfEncodeIsTheInstruction : Obligations.DecodeOfEncodeIsTheInstruction := by
  unfold Obligations.DecodeOfEncodeIsTheInstruction
  intro i _
  exact ⟨decode_encode i, by rw [decodeWord, encodeWord, Command.ofWord_toWord, decode_encode]⟩

/-- Settles O11: a legal op code reaches its own arm, which keeps it; a reserved one reaches the last. -/
theorem decodingFailsExactlyOnReservedOpCodes : Obligations.DecodingFailsExactlyOnReservedOpCodes := by
  unfold Obligations.DecodingFailsExactlyOnReservedOpCodes
  refine fun c => ⟨fun hlegal => ?_, decode_of_reserved⟩
  obtain ⟨i, hi⟩ := exists_decode_eq_ok hlegal
  exact ⟨i, hi, by rw [encode_of_decode hi, kept_op], ofOp_of_decode hi⟩

/-- `encode_of_decode`, of the 264-bit word. -/
theorem encodeWord_of_decodeWord {w : W264} (h : decodeWord w = .ok i) : encodeWord i = w &&& i.format.readMask := by
  rw [encodeWord, encode_of_decode h, toWord_kept, Command.toWord_ofWord]

/-- Settles O13: the encoding of the instruction is what its format keeps of the command, and keeping is masking. -/
theorem encodeOfDecodeKeepsTheBitsRead : Obligations.EncodeOfDecodeKeepsTheBitsRead := by
  unfold Obligations.EncodeOfDecodeKeepsTheBitsRead
  exact fun w i => encodeWord_of_decodeWord

/-- A word whose bits under the mask are the encoding of an instruction decodes to it. -/
theorem decodeWord_of_masked {w : W264} (h : w &&& i.format.readMask = encodeWord i) : decodeWord w = .ok i := by
  apply decode_of_kept
  rw [Format.kept, Command.toWord_ofWord, h, encodeWord, Command.ofWord_toWord]

theorem encodeWord_masked (i : Instr) : encodeWord i &&& i.format.readMask = encodeWord i := by
  rw [encodeWord, ← toWord_kept, kept_encode]

/-- Settles O15: the decoder run on each word. -/
theorem writtenOutWordsDecode : Obligations.WrittenOutWordsDecode := by
  unfold Obligations.WrittenOutWordsDecode
  decide +kernel

end Sys2Proof
end

section
/-!
Completion of a command word (30_encoding.md R55 to R58): what a reserved op code does, what a legal one does, and what neither
reads or leaves behind.
-/
namespace Sys2Proof.Machine

open Sys2Proof.Claims

variable {c : Command} {i : Instr}

/-- A command with a reserved op code completes by `completeReserved`. -/
theorem runCommand_of_reserved (h : reservedOp c.op = true) (s : State) : runCommand c s = .next (completeReserved s) := by
  simp [runCommand, decode_of_reserved h]

/-- R57 and R56 give a reserved op code the same response: it is what the completion shows. -/
theorem respond_of_reserved (h : reservedOp c.op = true) : respond c = respondReserved := by
  obtain ⟨t, hrun, hresp, -⟩ := exists_runCommand_eq c State.reset
  rw [runCommand_of_reserved h] at hrun
  cases hrun
  exact hresp.symm

/-- A legal command completes with the response of R57. It cannot complete as a reserved one, because it clears `ILL`. -/
theorem runCommand_of_legal (h : reservedOp c.op = false) (s : State) : runCommand c s = .next (complete (respond c) s) := by
  obtain hrun | ⟨hrun, -⟩ := runCommand_completes c s
  · exact hrun
  · obtain ⟨i, hi⟩ := exists_decode_eq_ok h
    obtain ⟨r, hill, hexec⟩ := exec_completes i
    rw [runCommand_of_decode_ok hi, hexec] at hrun
    have hstate : complete r s = completeReserved s := by injection hrun
    have hflag : illLegal = illReserved := hill.symm.trans (congrArg State.ILL hstate)
    exact absurd hflag (by decide)

/-- `completeReserved` is the frame the statements write out: the pair of sentinels has all 128 bits set. -/
theorem completeReserved_nextEdge (s : State) : completeReserved (nextEdge s) = afterReserved (edgePassed s) := by
  have hones : pair Config.SENTINEL64 Config.SENTINEL64 = 0xFFFFFFFFFFFFFFFFFFFFFFFFFFFFFFFF#128 := by decide
  simp only [completeReserved, complete, respondReserved, afterReserved, hones]
  rfl

/-- Settles O7: the completing edge of a busy lane is the completion of its command, which the op code rejects. -/
theorem reservedOpCodeCompletesAndMarksTheRun : Obligations.ReservedOpCodeCompletesAndMarksTheRun := by
  unfold Obligations.ReservedOpCodeCompletesAndMarksTheRun
  intro s f hrst hf hn hres
  rw [step_of_due hrst hf hn, runCommand_of_reserved hres, completeReserved_nextEdge]

/-- Settles O16: a reserved op code and a legal one both complete with the response of R57, and only the first marks the run. -/
theorem completionIsTheSpecsExecFunction : Obligations.CompletionIsTheSpecsExecFunction := by
  unfold Obligations.CompletionIsTheSpecsExecFunction
  intro c s
  cases h : reservedOp c.op with
  | true =>
    rw [runCommand_of_reserved h, respond_of_reserved h, Bool.or_true]
    rfl
  | false =>
    rw [runCommand_of_legal h, Bool.or_false]
    rfl

/-- Settles O14: a word that keeps the same bits has the same encoding under its mask, so it decodes alike; the encoding is its own
masked word; a reserved op code completes without a look at the operands. -/
theorem ignoredBitsDoNotMatter : Obligations.IgnoredBitsDoNotMatter := by
  unfold Obligations.IgnoredBitsDoNotMatter
  refine ⟨fun w w' i h hmask => ?_, fun i => ?_, fun c c' h hop s => ?_⟩
  · have h' : decodeWord w' = .ok i := decodeWord_of_masked (by rw [← hmask, encodeWord_of_decodeWord h])
    exact ⟨h', fun s => by rw [runCommand_of_decode_ok h', runCommand_of_decode_ok h]⟩
  · rw [← encodeWord_masked i, BitVec.and_assoc, BitVec.and_not_self]
    exact BitVec.and_zero
  · rw [runCommand_of_reserved h, runCommand_of_reserved (hop ▸ h)]

end Sys2Proof.Machine
end

section
/-!
Legal commands and the bits of their response (30_encoding.md R58): a word result leaves `R.hi` zero, and only the divider writes
`S`.
-/
namespace Sys2Proof.Machine

/-- The number of a binary32 pattern in `R`, all bits above it zero. -/
theorem toNat_pair_zero_zext64 (p : W32) : (pair 0 (zext64 p)).toNat = p.toNat := by
  have hp : p.toNat < 2 ^ 64 := p.isLt.trans (by decide)
  rw [toNat_pair, zext64, BitVec.toNat_setWidth, Nat.mod_eq_of_lt hp]
  simp

/-- Settles O18, by the shape of each response: quotient and remainder, pair, word, and word made of a binary32 pattern. -/
theorem legalCommandLeavesNoStaleBit : Obligations.LegalCommandLeavesNoStaleBit := by
  unfold Obligations.LegalCommandLeavesNoStaleBit
  intro i
  cases i with
  | div128to64 =>
    exact ⟨_, fun s => ⟨_, rfl, complete_response _ s⟩, rfl, fun hunit => absurd rfl hunit, fun _ => hi_pair _ _, nofun⟩
  | div128to128 =>
    exact ⟨_, fun s => ⟨_, rfl, complete_response _ s⟩, rfl, fun hunit => absurd rfl hunit, by simp [Instr.unit], nofun⟩
  | add128 | sub128 | inc128 | dec128 | mul64w | mul128x64 | f64ToU128 | f32ToU128 =>
    exact ⟨_, fun s => ⟨_, rfl, complete_response _ s⟩, rfl, fun _ => rfl, by simp [Instr.unit], nofun⟩
  | sqrtIter | isqrt | cbrtIter | icbrt | u128ToF64 =>
    exact ⟨_, fun s => ⟨_, rfl, complete_response _ s⟩, rfl, fun _ => rfl, fun _ => hi_pair _ _, nofun⟩
  | u128ToF32 a =>
    have hword : (pair 0 (zext64 (u128ToF32 a))).toNat < 2 ^ 32 := by
      rw [toNat_pair_zero_zext64]
      exact (u128ToF32 a).isLt
    exact ⟨_, fun s => ⟨_, rfl, complete_response _ s⟩, rfl, fun _ => rfl, fun _ => hi_pair _ _, fun _ _ => hword⟩

end Sys2Proof.Machine
end

section
/-!
The comparisons of limb pairs, and minimum and maximum, are those of the numbers (40_limb_primitives.md R71, R73): the order of the
numbers is lexicographic on the limbs.
-/
namespace Sys2Proof.Machine

variable {x y : W128}

@[simp] theorem lt128_iff : lt128 x y = true ↔ x.toNat < y.toNat := by
  have hx := x.isLt
  have hy := y.isLt
  simp only [lt128, Bool.or_eq_true, Bool.and_eq_true, beq_iff_eq, BitVec.ult_iff_lt, BitVec.lt_def, ← BitVec.toNat_inj, toNat_hi,
    toNat_lo]
  omega

@[simp] theorem lt128_eq_false_iff : lt128 x y = false ↔ y.toNat ≤ x.toNat := by
  rw [← Bool.not_eq_true, lt128_iff, Nat.not_lt]

@[simp] theorem eq128_iff : eq128 x y = true ↔ x = y := by
  simp only [eq128, Bool.and_eq_true, beq_iff_eq]
  exact ⟨fun ⟨hHi, hLo⟩ => eq_of_limbs hHi hLo, fun h => h ▸ ⟨rfl, rfl⟩⟩

@[simp] theorem le128_iff : le128 x y = true ↔ x.toNat ≤ y.toNat := by
  rw [le128, Bool.or_eq_true, lt128_iff, eq128_iff, ← BitVec.toNat_inj, Nat.le_iff_lt_or_eq]

@[simp] theorem ge128_iff : ge128 x y = true ↔ y.toNat ≤ x.toNat := by
  rw [ge128, Bool.not_eq_true', lt128_eq_false_iff]

@[simp] theorem ne128_iff : ne128 x y = true ↔ x ≠ y := by
  rw [ne128, Bool.not_eq_true', ← Bool.not_eq_true, eq128_iff]

@[simp] theorem toNat_min128 (x y : W128) : (min128 x y).toNat = min x.toNat y.toNat := by
  unfold min128
  split
  case isTrue h => exact (Nat.min_eq_right (lt128_iff.1 h).le).symm
  case isFalse h => exact (Nat.min_eq_left (Nat.not_lt.1 (mt lt128_iff.2 h))).symm

@[simp] theorem toNat_max128 (x y : W128) : (max128 x y).toNat = max x.toNat y.toNat := by
  unfold max128
  split
  case isTrue h => exact (Nat.max_eq_right (lt128_iff.1 h).le).symm
  case isFalse h => exact (Nat.max_eq_left (Nat.not_lt.1 (mt lt128_iff.2 h))).symm

/-- Settles O53: `lt128` and `eq128` are those of the numbers, and the other relations, minimum and maximum are made of them. -/
theorem comparisonsAreThoseOfTheValues : Obligations.ComparisonsAreThoseOfTheValues := by
  unfold Obligations.ComparisonsAreThoseOfTheValues
  intro x y
  exact ⟨lt128_iff, eq128_iff, le128_iff, lt128_iff, ge128_iff, ne128_iff, toNat_min128 x y, toNat_max128 x y⟩

end Sys2Proof.Machine
end

section
/-!
The bitwise operators act on the halves of an append alone (40_limb_primitives.md R74), and the image of a scalar is its extension to
128 bits (R72): zeros or copies of the sign stand above the word.
-/
namespace Sys2Proof.Machine

@[simp] theorem and128_eq_and (x y : W128) : and128 x y = x &&& y :=
  calc and128 x y = pair (hi x) (lo x) &&& pair (hi y) (lo y) := BitVec.and_append.symm
    _ = x &&& y := by rw [pair_hi_lo, pair_hi_lo]

@[simp] theorem or128_eq_or (x y : W128) : or128 x y = x ||| y :=
  calc or128 x y = pair (hi x) (lo x) ||| pair (hi y) (lo y) := BitVec.or_append.symm
    _ = x ||| y := by rw [pair_hi_lo, pair_hi_lo]

@[simp] theorem xor128_eq_xor (x y : W128) : xor128 x y = x ^^^ y :=
  calc xor128 x y = pair (hi x) (lo x) ^^^ pair (hi y) (lo y) := BitVec.xor_append.symm
    _ = x ^^^ y := by rw [pair_hi_lo, pair_hi_lo]

@[simp] theorem not128_eq_not (x : W128) : not128 x = ~~~x :=
  calc not128 x = ~~~pair (hi x) (lo x) := BitVec.not_append.symm
    _ = ~~~x := by rw [pair_hi_lo]

/-- A double-width integer converts to itself, whatever the image of narrower scalars is (R72). -/
@[simp] theorem fromScalar_128 (v image : W128) : fromScalar 128 v image = .ok v := by
  simp [fromScalar]

theorem pair_zero_eq_setWidth (w : W64) : pair 0 w = w.setWidth 128 :=
  (BitVec.setWidth_eq_append (by decide)).symm

theorem pair_signs_eq_signExtend (w : W64) :
    pair (if w.msb then 0xFFFFFFFFFFFFFFFF#64 else 0#64) w = w.signExtend 128 :=
  (BitVec.signExtend_eq_append_of_le (by decide)).symm

section Scalar

variable {n : Nat} (v : BitVec n) (h : n ≤ 64)
include h

theorem setWidth_128_setWidth_64 : (v.setWidth 64).setWidth 128 = v.setWidth 128 := by
  apply BitVec.eq_of_toNat_eq
  rw [BitVec.toNat_setWidth_of_le (by decide), BitVec.toNat_setWidth_of_le h, BitVec.toNat_setWidth_of_le (h.trans (by decide))]

theorem signExtend_128_signExtend_64 : (v.signExtend 64).signExtend 128 = v.signExtend 128 := by
  apply BitVec.eq_of_toInt_eq
  rw [BitVec.toInt_signExtend_of_le (by decide), BitVec.toInt_signExtend_of_le h, BitVec.toInt_signExtend_of_le (h.trans (by decide))]

theorem msb_signExtend_64 : (v.signExtend 64).msb = v.msb := by
  rw [BitVec.msb_eq_toInt, BitVec.msb_eq_toInt, BitVec.toInt_signExtend_of_le h]

theorem fromUnsigned_of_le : fromUnsigned n v = .ok (v.setWidth 128) := by
  rw [fromUnsigned, fromScalar_of_le h, pair_zero_eq_setWidth, setWidth_128_setWidth_64 v h]

theorem fromSigned_of_le : fromSigned n v = .ok (v.signExtend 128) := by
  rw [fromSigned, fromScalar_of_le h, ← msb_signExtend_64 v h, pair_signs_eq_signExtend, signExtend_128_signExtend_64 v h]

end Scalar

/-- Settles O56, by the operators on the halves of an append and by the three kinds of width. -/
theorem bitwiseAndConstructionAct128BitsWide : Obligations.BitwiseAndConstructionAct128BitsWide := by
  unfold Obligations.BitwiseAndConstructionAct128BitsWide
  exact ⟨fun x y => ⟨and128_eq_and x y, or128_eq_or x y, xor128_eq_xor x y, not128_eq_not x⟩,
    fun n v h => ⟨fromUnsigned_of_le v h, fromSigned_of_le v h⟩,
    fun v => ⟨fromScalar_128 v _, fromScalar_128 v _⟩,
    fun n v h h' => ⟨fromScalar_of_unsupported h h', fromScalar_of_unsupported h h'⟩⟩

end Sys2Proof.Machine
end

section
/-!
Shifts and the leading-zero count (40_limb_primitives.md R75 to R78). Shifting a pair shifts each limb, and the bits that leave one
limb enter the other.
-/
namespace Sys2Proof.Machine

variable {b : Nat}

theorem getLsbD_lo (x : W128) (i : Nat) : (lo x).getLsbD i = (decide (i < 64) && x.getLsbD i) := by
  rw [lo, BitVec.getLsbD_extractLsb', Nat.zero_add]

theorem getLsbD_hi (x : W128) (i : Nat) : (hi x).getLsbD i = (decide (i < 64) && x.getLsbD (64 + i)) :=
  BitVec.getLsbD_extractLsb' 64 64 x i

theorem lo_shiftLeft (x : W128) (b : Nat) : lo (x <<< b) = lo x <<< b := by
  apply BitVec.eq_of_getLsbD_eq
  intro i hbit
  simp only [getLsbD_lo, BitVec.getLsbD_shiftLeft]
  grind

theorem hi_ushiftRight (x : W128) (b : Nat) : hi (x >>> b) = hi x >>> b := by
  apply BitVec.eq_of_getLsbD_eq
  intro i hbit
  have hsource : b + (64 + i) = 64 + (b + i) := by omega
  simp only [getLsbD_hi, BitVec.getLsbD_ushiftRight, hsource]
  grind

/-- Bit `i` of the high limb comes from the low limb when `i < b`, and from `b` places below in the high limb otherwise. -/
theorem hi_shiftLeft_of_lt (x : W128) (hb : b < 64) : hi (x <<< b) = (hi x <<< b) ||| (lo x >>> (64 - b)) := by
  apply BitVec.eq_of_getLsbD_eq
  intro i hbit
  simp only [getLsbD_lo, getLsbD_hi, BitVec.getLsbD_or, BitVec.getLsbD_shiftLeft, BitVec.getLsbD_ushiftRight]
  by_cases hcross : i < b
  · have hsource : 64 + i - b = 64 - b + i := by omega
    grind
  · have hsource : 64 + i - b = 64 + (i - b) := by omega
    grind

/-- Bit `i` of the low limb comes from `b` places above in the low limb when there is such a place, and from the high limb
otherwise. -/
theorem lo_ushiftRight_of_lt (x : W128) (hb : b < 64) : lo (x >>> b) = (lo x >>> b) ||| (hi x <<< (64 - b)) := by
  apply BitVec.eq_of_getLsbD_eq
  intro i hbit
  simp only [getLsbD_lo, getLsbD_hi, BitVec.getLsbD_or, BitVec.getLsbD_shiftLeft, BitVec.getLsbD_ushiftRight]
  by_cases hstay : b + i < 64
  · grind
  · have hsource : b + i = 64 + (i - (64 - b)) := by omega
    grind

/-- From an amount of 64 on, every bit of the high limb comes from the low limb. -/
theorem hi_shiftLeft_of_ge (x : W128) (hb : 64 ≤ b) : hi (x <<< b) = lo x <<< (b - 64) := by
  apply BitVec.eq_of_getLsbD_eq
  intro i hbit
  have hsource : 64 + i - b = i - (b - 64) := by omega
  simp only [getLsbD_lo, getLsbD_hi, BitVec.getLsbD_shiftLeft, hsource]
  grind

/-- From an amount of 64 on, every bit of the low limb comes from the high limb. -/
theorem lo_ushiftRight_of_ge (x : W128) (hb : 64 ≤ b) : lo (x >>> b) = hi x >>> (b - 64) := by
  apply BitVec.eq_of_getLsbD_eq
  intro i hbit
  have hsource : b + i = 64 + (b - 64 + i) := by omega
  simp only [getLsbD_lo, getLsbD_hi, BitVec.getLsbD_ushiftRight, hsource]
  grind

@[simp] theorem shl128_eq_shiftLeft (x : W128) (b : Nat) : shl128 x b = x <<< b := by
  unfold shl128
  split_ifs with hzero hlow hhigh
  · rw [hzero, BitVec.shiftLeft_zero]
  · rw [← hi_shiftLeft_of_lt x hlow, ← lo_shiftLeft, pair_hi_lo]
  · have hge : 64 ≤ b := Nat.not_lt.1 hlow
    have hlo : lo (x <<< b) = 0 := (lo_shiftLeft x b).trans (BitVec.shiftLeft_eq_zero hge)
    rw [← hi_shiftLeft_of_ge x hge, ← hlo, pair_hi_lo]
  · exact (BitVec.shiftLeft_eq_zero (Nat.not_lt.1 hhigh)).symm

@[simp] theorem shr128_eq_ushiftRight (x : W128) (b : Nat) : shr128 x b = x >>> b := by
  unfold shr128
  split_ifs with hzero hlow hhigh
  · rw [hzero, BitVec.ushiftRight_zero]
  · rw [← lo_ushiftRight_of_lt x hlow, ← hi_ushiftRight, pair_hi_lo]
  · have hge : 64 ≤ b := Nat.not_lt.1 hlow
    have hhi : hi (x >>> b) = 0 := (hi_ushiftRight x b).trans (BitVec.ushiftRight_eq_zero hge)
    rw [← lo_ushiftRight_of_ge x hge, ← hhi, pair_hi_lo]
  · exact (BitVec.ushiftRight_eq_zero (Nat.not_lt.1 hhigh)).symm

theorem toNat_shl128 (x : W128) (b : Nat) : (shl128 x b).toNat = x.toNat * 2 ^ b % 2 ^ 128 := by
  rw [shl128_eq_shiftLeft, BitVec.toNat_shiftLeft, Nat.shiftLeft_eq]

theorem toNat_shr128 (x : W128) (b : Nat) : (shr128 x b).toNat = x.toNat / 2 ^ b := by
  rw [shr128_eq_ushiftRight, BitVec.toNat_ushiftRight, Nat.shiftRight_eq_div_pow]

/-- Settles O54: the limb-wise shifts are the shifts of the 128-bit vector. -/
theorem shiftsAreThoseOfTheValues : Obligations.ShiftsAreThoseOfTheValues := by
  unfold Obligations.ShiftsAreThoseOfTheValues
  exact fun x b => ⟨toNat_shl128 x b, toNat_shr128 x b⟩

theorem clz64_of_ne_zero {w : W64} (hw : w ≠ 0) : clz64 w = 63 - Nat.log2 w.toNat := if_neg hw

/-- Settles O55: `63 - clz64 w` is the binary logarithm of `w`, which is below 64. -/
theorem leadingZeroCountPlacesTheFirstSetBit : Obligations.LeadingZeroCountPlacesTheFirstSetBit := by
  unfold Obligations.LeadingZeroCountPlacesTheFirstSetBit
  intro w hw
  have hpos : w.toNat ≠ 0 := fun h => hw (BitVec.eq_of_toNat_eq h)
  have hlog : Nat.log2 w.toNat < 64 := (Nat.log2_lt hpos).2 w.isLt
  have hclz := clz64_of_ne_zero hw
  have hfirst : 63 - clz64 w = Nat.log2 w.toNat := by omega
  have hnext : 64 - clz64 w = Nat.log2 w.toNat + 1 := by omega
  rw [hfirst, hnext]
  exact ⟨by omega, Nat.log2_self_le hpos, Nat.lt_log2_self⟩

end Sys2Proof.Machine
end

section
/-!
The adder, the subtractor and the multipliers as numbers (41_carry_chain.md R90, R92; 42_widening_multiply.md R100, R102), and the
source's identities made of them (40_limb_primitives.md R80).
-/
namespace Sys2Proof.Machine

theorem toNat_add128 (x y : W128) : (add128 x y).toNat = (x.toNat + y.toNat) % 2 ^ 128 := by
  simp only [add128, carry64, toNat_pair, toNat_hi, toNat_lo, BitVec.toNat_ofNat]
  omega

theorem add128_eq_add (x y : W128) : add128 x y = x + y :=
  BitVec.eq_of_toNat_eq (toNat_add128 x y)

theorem toNat_borrow64 (x y : W128) : (borrow64 x y).toNat = if (lo x).toNat < (lo y).toNat then 1 else 0 := by
  simp only [borrow64, BitVec.ult_iff_lt, BitVec.lt_def]
  split <;> rfl

/-- The borrow out of the low limb makes the limb-wise difference that of the numbers, wrapped or not. -/
theorem sub128_eq_sub (x y : W128) : sub128 x y = x - y := by
  have hx := x.isLt
  have hy := y.isLt
  apply BitVec.eq_of_toNat_eq
  simp only [sub128, toNat_pair, BitVec.toNat_sub, toNat_borrow64, toNat_hi, toNat_lo]
  split <;> omega

theorem toNat_mul64w (a b : W64) : (mul64w a b).toNat = a.toNat * b.toNat := by
  have hlt : a.toNat * b.toNat < 2 ^ 64 * 2 ^ 64 := Nat.mul_lt_mul'' a.isLt b.isLt
  simp only [mul64w, toNat_pair, BitVec.toNat_ofNat]
  omega

/-- The product is the high limb's shifted by a word plus the low limb's; modulo 2^128 only the low word of the former counts. -/
theorem toNat_mul128x64 (x : W128) (y : W64) : (mul128x64 x y).toNat = x.toNat * y.toNat % 2 ^ 128 := by
  have hsplit : x.toNat * y.toNat = (hi x).toNat * y.toNat * 2 ^ 64 + (mul64w (lo x) y).toNat := by
    rw [← val_eq_toNat, val, toNat_mul64w]
    ring
  simp only [mul128x64, toNat_pair, BitVec.toNat_add, BitVec.toNat_mul, toNat_hi (mul64w _ _), toNat_lo (mul64w _ _), hsplit]
  omega

/-- Settles O27, identity by identity on the numbers: doubling a word does not wrap, so that halving undoes it. -/
theorem sourceIdentitiesOfAWord : Obligations.SourceIdentitiesOfAWord := by
  unfold Obligations.SourceIdentitiesOfAWord
  intro x v
  have hv : v.toNat < 2 ^ 64 := by simpa [v] using x.isLt
  have hdouble : (add128 v v).toNat = v.toNat * 2 := by rw [toNat_add128]; omega
  have htwo : (2 : W64).toNat = 2 := rfl
  have htimes : (mul128x64 v 2).toNat = v.toNat * 2 := by rw [toNat_mul128x64, htwo]; omega
  have hhalf : (shr128 (add128 v v) 1).toNat = v.toNat := by rw [toNat_shr128, hdouble]; omega
  have hshift : (shl128 v 1).toNat = v.toNat * 2 := by rw [toNat_shl128]; omega
  have hdiff : sub128 v v = pair 0 0 := (sub128_eq_sub v v).trans (BitVec.sub_self v)
  exact ⟨BitVec.eq_of_toNat_eq (hdouble.trans htimes.symm), hdiff, BitVec.eq_of_toNat_eq hhalf,
    BitVec.eq_of_toNat_eq (hshift.trans hdouble.symm)⟩

end Sys2Proof.Machine
end

section
/-!
The carry chain's commands (41_carry_chain.md). On 128-bit vectors the limb-wise adder and subtractor are `+` and `-`; the limb
equations say where the carry and the borrow go, and the host finds either by a comparison.
-/
namespace Sys2Proof.Machine

open Sys2Proof.Claims

/-- The carry out of the low limb is at most one (R90). -/
theorem carry64_eq_ite (x y : W128) : carry64 x y = if 2 ^ 64 ≤ (lo x).toNat + (lo y).toNat then 1 else 0 := by
  have hx := (lo x).isLt
  have hy := (lo y).isLt
  unfold carry64
  split <;> omega

/-- The adder limb by limb: the carry out of the low limb goes into the high one (R90). -/
theorem add128_eq_pair (x y : W128) :
    add128 x y =
      pair (hi x + hi y + if 2 ^ 64 ≤ (lo x).toNat + (lo y).toNat then 1#64 else 0#64) (lo x + lo y) := by
  have hcarry : BitVec.ofNat 64 (carry64 x y) = if 2 ^ 64 ≤ (lo x).toNat + (lo y).toNat then 1#64 else 0#64 := by
    rw [carry64_eq_ite, apply_ite (BitVec.ofNat 64)]
  simp only [add128, BitVec.ofNat_add, BitVec.ofNat_toNat, BitVec.setWidth_eq, hcarry]

/-- The borrow out of the low limb is the comparison of the low limbs' numbers (R92). -/
theorem borrow64_eq_ite (x y : W128) : borrow64 x y = if (lo x).toNat < (lo y).toNat then 1#64 else 0#64 :=
  if_congr BitVec.ult_iff_lt rfl rfl

/-- The subtractor limb by limb: the borrow out of the low limb is taken from the high one (R92). -/
theorem sub128_eq_pair (x y : W128) :
    sub128 x y = pair (hi x - hi y - if (lo x).toNat < (lo y).toNat then 1#64 else 0#64) (lo x - lo y) := by
  rw [sub128, borrow64_eq_ite]

/-- The second operand of INC128 and DEC128 (R94, R95). -/
theorem pair_zero_one : pair 0 1 = 1 := rfl

/-- A pair result is written to `R`, with `S` and `ILL` zero (30_encoding.md R58). -/
theorem complete_respondPair (r : W128) (s : State) : complete (respondPair r) s = afterLegal s r 0 :=
  complete_eq_afterLegal rfl s

theorem exec_add128 (a b : W128) (s : State) : exec (.add128 a b) s = .next (afterLegal s (a + b) 0) := by
  rw [← add128_eq_add, ← complete_respondPair]
  rfl

theorem exec_sub128 (a b : W128) (s : State) : exec (.sub128 a b) s = .next (afterLegal s (a - b) 0) := by
  rw [← sub128_eq_sub, ← complete_respondPair]
  rfl

/-- INC128 is ADD128 with second operand one (R94). -/
theorem exec_inc128 (a : W128) (s : State) : exec (.inc128 a) s = exec (.add128 a 1) s := rfl

/-- DEC128 is SUB128 with second operand one (R95). -/
theorem exec_dec128 (a : W128) (s : State) : exec (.dec128 a) s = exec (.sub128 a 1) s := rfl

/-- Settles O21: the limb-wise sum with its carry is that of the 128-bit vectors. -/
theorem add128AddsModulo2Pow128 : Obligations.Add128AddsModulo2Pow128 := by
  unfold Obligations.Add128AddsModulo2Pow128
  refine ⟨fun c hop => ?_, exec_add128, add128_eq_pair⟩
  simp only [decode, hop, operandA, operandB]

/-- Settles O22: the limb-wise difference with its borrow is that of the 128-bit vectors. -/
theorem sub128SubtractsModulo2Pow128 : Obligations.Sub128SubtractsModulo2Pow128 := by
  unfold Obligations.Sub128SubtractsModulo2Pow128
  refine ⟨fun c hop => ?_, exec_sub128, sub128_eq_pair⟩
  simp only [decode, hop, operandA, operandB]

/-- Settles O23, from the meaning of ADD128. -/
theorem inc128AddsOne : Obligations.Inc128AddsOne := by
  unfold Obligations.Inc128AddsOne
  refine ⟨fun c hop => ?_, fun a s => (exec_inc128 a s).trans (exec_add128 a 1 s)⟩
  simp only [decode, hop, operandA]

/-- Settles O24, from the meaning of SUB128. -/
theorem dec128SubtractsOne : Obligations.Dec128SubtractsOne := by
  unfold Obligations.Dec128SubtractsOne
  refine ⟨fun c hop => ?_, fun a s => (exec_dec128 a s).trans (exec_sub128 a 1 s)⟩
  simp only [decode, hop, operandA]

/-- A difference is the sum with the two's complement of the subtrahend (R96). -/
theorem sub128_eq_add128_not128 (x y : W128) : sub128 x y = add128 x (add128 (not128 y) (pair 0 1)) := by
  calc sub128 x y = x - y := sub128_eq_sub x y
    _ = x + -y := BitVec.sub_eq_add_neg x y
    _ = x + (~~~y + 1) := congrArg (x + ·) (BitVec.neg_eq_not_add y)
    _ = add128 x (add128 (not128 y) (pair 0 1)) := by
      rw [add128_eq_add, add128_eq_add, not128_eq_not, pair_zero_one]

/-- Settles O25: the laws are those of `+` and `-` on 128-bit vectors. -/
theorem carryChainLaws : Obligations.CarryChainLaws := by
  unfold Obligations.CarryChainLaws
  refine ⟨fun x y => ?comm, fun x y z => ?assoc, fun x => ?zero, sub128_eq_add128_not128, fun x y => ⟨?addSub, ?subAdd⟩⟩
  case comm => simp only [add128_eq_add, BitVec.add_comm]
  case assoc => simp only [add128_eq_add, BitVec.add_assoc]
  case zero => exact (add128_eq_add x _).trans (BitVec.add_zero x)
  case addSub => rw [add128_eq_add, sub128_eq_sub, BitVec.add_sub_cancel]
  case subAdd => rw [sub128_eq_sub, add128_eq_add, BitVec.sub_add_cancel]

/-- The sum is below its first operand exactly when it has lost 2^128: the second operand is less than that (R97). -/
theorem hostCarryOut_add128_iff (a b : W128) : hostCarryOut (add128 a b) a = true ↔ 2 ^ 128 ≤ a.toNat + b.toNat := by
  have ha := a.isLt
  have hb := b.isLt
  rw [hostCarryOut, lt128_iff, toNat_add128]
  omega

/-- Settles O26, by the comparison's meaning on numbers. -/
theorem hostFindsCarryAndBorrow : Obligations.HostFindsCarryAndBorrow := by
  unfold Obligations.HostFindsCarryAndBorrow
  exact ⟨hostCarryOut_add128_iff, fun _ _ => lt128_iff⟩

end Sys2Proof.Machine
end

section
/-!
The multiplier's commands (42_widening_multiply.md): MUL64W's product always fits, MUL128X64's is taken modulo 2^128, and the host
finds from the limbs' products when that loses something.
-/
namespace Sys2Proof.Machine

open Sys2Proof.Claims

theorem exec_mul64w (a b : W64) (s : State) : exec (.mul64w a b) s = .next (afterLegal s (mul64w a b) 0) := by
  rw [← complete_respondPair]
  rfl

theorem exec_mul128x64 (a : W128) (y : W64) (s : State) :
    exec (.mul128x64 a y) s = .next (afterLegal s (mul128x64 a y) 0) := by
  rw [← complete_respondPair]
  rfl

/-- Settles O28: the two halves of the product make up its number, which is below 2^128. -/
theorem mul64wIsTheExactProduct : Obligations.Mul64wIsTheExactProduct := by
  unfold Obligations.Mul64wIsTheExactProduct
  refine ⟨fun c hop => ?_, fun a b s => ⟨mul64w a b, exec_mul64w a b s, toNat_mul64w a b⟩⟩
  simp only [decode, hop]

/-- Settles O29: the limbs' products, added in place, are the number's product modulo 2^128. -/
theorem mul128x64IsTheProductModulo2Pow128 : Obligations.Mul128x64IsTheProductModulo2Pow128 := by
  unfold Obligations.Mul128x64IsTheProductModulo2Pow128
  refine ⟨fun c hop => ?_, fun a y s => ⟨mul128x64 a y, exec_mul128x64 a y s, toNat_mul128x64 a y⟩⟩
  simp only [decode, hop, operandA]

/-- A number times a word, limb by limb, nothing dropped (R103). -/
theorem toNat_mul_eq_limb_products (x : W128) (y : W64) :
    x.toNat * y.toNat = (hi x).toNat * y.toNat * 2 ^ 64 + (lo x).toNat * y.toNat := by
  rw [← val_eq_toNat, val, Nat.add_mul, Nat.mul_right_comm]

/-- The product reaches 2^128 when the high limb's product already fills a word, or when it does so once the upper half of the low
limb's is added (R103). -/
theorem hostMulWraps_iff (a : W128) (y : W64) : hostMulWraps a y = true ↔ 2 ^ 128 ≤ a.toNat * y.toNat := by
  rw [toNat_mul_eq_limb_products, hostMulWraps, Bool.or_eq_true, decide_eq_true_iff, decide_eq_true_iff]
  generalize (hi a).toNat * y.toNat = high
  generalize (lo a).toNat * y.toNat = low
  omega

/-- Settles O30, from the limbs' products. -/
theorem hostFindsMultiplyWrap : Obligations.HostFindsMultiplyWrap := hostMulWraps_iff

end Sys2Proof.Machine
end

section
/-!
The divisions as numbers (43_division.md R110, R118), and the block's own check of a division: quotient times divisor plus remainder
is the dividend (R104, R122).
-/
namespace Sys2Proof.Machine

variable {x : W128} {d : W64}

/-- With the high limb below the divisor the quotient fits a word, so both outputs are the number's quotient and remainder
(R110). -/
theorem toNat_div128to64_of_lt (h : hi x < d) :
    (div128to64 x d).1.toNat = x.toNat / d.toNat ∧ (div128to64 x d).2.toNat = x.toNat % d.toNat := by
  have hhi : x.toNat / 2 ^ 64 < d.toNat := by simpa [BitVec.lt_def, toNat_hi] using h
  have hquot : x.toNat / d.toNat < 2 ^ 64 :=
    Nat.div_lt_of_lt_mul ((Nat.div_lt_iff_lt_mul (Nat.two_pow_pos 64)).1 hhi)
  have hrem : x.toNat % d.toNat < 2 ^ 64 := (Nat.mod_lt _ (Nat.zero_lt_of_lt hhi)).trans d.isLt
  rw [div128to64_of_lt h, val_eq_toNat]
  exact ⟨Nat.mod_eq_of_lt hquot, Nat.mod_eq_of_lt hrem⟩

/-- The two parts of `div128to128` for a non-zero divisor: the high limb's division, then the one of its remainder beside the low
limb (R118). -/
theorem div128to128_of_ne_zero (hd : d ≠ 0) :
    div128to128 x d =
      (pair (hi x / d) (div128to64 (pair (hi x % d) (lo x)) d).1, (div128to64 (pair (hi x % d) (lo x)) d).2) :=
  if_neg hd

/-- The second division of `div128to128` never overflows: its high limb is a remainder by the same divisor (R118). -/
theorem hi_pair_umod_lt (x : W128) (hd : d ≠ 0) : hi (pair (hi x % d) (lo x)) < d := by
  rw [hi_pair]
  exact BitVec.umod_lt _ ((BitVec.pos_iff_ne_zero d).2 hd)

/-- `div128to128` for a non-zero divisor is division with remainder: the two divisions' own identities, the high limb's shifted by
a word (R118). -/
theorem toNat_div128to128_euclidean (x : W128) (hd : d ≠ 0) :
    x.toNat = (div128to128 x d).1.toNat * d.toNat + (div128to128 x d).2.toNat ∧ (div128to128 x d).2.toNat < d.toNat := by
  obtain ⟨hquot, hrem⟩ := toNat_div128to64_of_lt (hi_pair_umod_lt x hd)
  have hhigh := Nat.div_add_mod' (hi x).toNat d.toNat
  have hlow := Nat.div_add_mod' (pair (hi x % d) (lo x)).toNat d.toNat
  rw [← hquot, ← hrem, toNat_pair, BitVec.toNat_umod] at hlow
  rw [div128to128_of_ne_zero hd]
  refine ⟨?identity, ?bound⟩
  case identity =>
    rw [toNat_pair, BitVec.toNat_udiv, Nat.add_mul, Nat.add_assoc, hlow, ← val_eq_toNat x, val]
    linear_combination 2 ^ 64 * hhigh.symm
  case bound =>
    rw [hrem]
    exact Nat.mod_lt _ (BitVec.toNat_pos_of_ne_zero hd)

/-- Settles O34: the dividend's number is `Q * d + rem`, and the wraps of the multiplier and the adder leave it as it is, for it is
below 2^128. -/
theorem divisionIdentity : Obligations.DivisionIdentity := by
  unfold Obligations.DivisionIdentity
  intro x d hd
  obtain ⟨hident, -⟩ := toNat_div128to128_euclidean x hd
  apply BitVec.eq_of_toNat_eq
  have hrem : (pair 0 (div128to128 x d).2).toNat = (div128to128 x d).2.toNat := by simp
  rw [toNat_add128, toNat_mul128x64, hrem, Nat.mod_add_mod, ← hident, Nat.mod_eq_of_lt x.isLt]

end Sys2Proof.Machine
end

section
/-!
The divider's commands (43_division.md R111, R119): both answers written out, the pair of sentinels where there is no division, and
a division with remainder elsewhere.
-/
namespace Sys2Proof.Machine

open Sys2Proof.Claims

variable {a : W128} {d : W64}

/-- Quotient and remainder are written to `R` and `S`, with `ILL` zero (30_encoding.md R58). -/
theorem complete_respondDivision (q : W128) (m : W64) (s : State) :
    complete (respondDivision q m) s = afterLegal s q m :=
  complete_eq_afterLegal rfl s

theorem exec_div128to64 (a : W128) (d : W64) (s : State) :
    exec (.div128to64 a d) s = .next (afterLegal s (pair 0 (div128to64 a d).1) (div128to64 a d).2) := by
  rw [← complete_respondDivision]
  rfl

theorem exec_div128to128 (a : W128) (d : W64) (s : State) :
    exec (.div128to128 a d) s = .next (afterLegal s (div128to128 a d).1 (div128to128 a d).2) := by
  rw [← complete_respondDivision]
  rfl

/-- `div128to64` is division with remainder when the high limb is below the divisor (R110). -/
theorem toNat_div128to64_euclidean (h : hi a < d) :
    a.toNat = (div128to64 a d).1.toNat * d.toNat + (div128to64 a d).2.toNat ∧ (div128to64 a d).2.toNat < d.toNat := by
  obtain ⟨hquot, hrem⟩ := toNat_div128to64_of_lt h
  rw [hquot, hrem]
  exact ⟨(Nat.div_add_mod' _ _).symm, Nat.mod_lt _ (Nat.zero_lt_of_lt h)⟩

/-- The quotient of the sentinel pair, as DIV128TO64 writes it to `R` (R111). -/
theorem pair_zero_sentinel64 : pair 0 Config.SENTINEL64 = 0x0000000000000000FFFFFFFFFFFFFFFF#128 := by decide

/-- The quotient DIV128TO128 writes to `R` for a zero divisor (R120). -/
theorem pair_sentinel64_sentinel64 :
    pair Config.SENTINEL64 Config.SENTINEL64 = 0xFFFFFFFFFFFFFFFFFFFFFFFFFFFFFFFF#128 := by decide

/-- Settles O31: the sentinel arm of `div128to64`, and the division with remainder of the other one. -/
theorem div128to64DividesOrGivesTheSentinel : Obligations.Div128to64DividesOrGivesTheSentinel := by
  unfold Obligations.Div128to64DividesOrGivesTheSentinel
  refine ⟨fun c hop => ?decodes, fun a d s hle => ?sentinel, fun a d s hlt => ?divides⟩
  case decodes => simp only [decode, hop, operandA]
  case sentinel =>
    rw [exec_div128to64, div128to64_of_le hle, pair_zero_sentinel64]
    rfl
  case divides => exact ⟨_, _, exec_div128to64 a d s, toNat_div128to64_euclidean hlt⟩

/-- Settles O33: the arm of a zero divisor, and the division with remainder made of the two limbs' divisions. -/
theorem div128to128DividesOrGivesAllOnes : Obligations.Div128to128DividesOrGivesAllOnes := by
  unfold Obligations.Div128to128DividesOrGivesAllOnes
  refine ⟨fun c hop => ?decodes, fun a s => ?zero, fun a d s hd => ?divides⟩
  case decodes => simp only [decode, hop, operandA]
  case zero =>
    rw [exec_div128to128, div128to128_zero, pair_sentinel64_sentinel64]
    rfl
  case divides => exact ⟨_, _, exec_div128to128 a d s, toNat_div128to128_euclidean a hd⟩

end Sys2Proof.Machine
end

section
/-!
One digit of the long division as numbers (43_division.md R115): `vn1` and `vn0` are the half-words of the divisor, `n` is the
partial dividend and `next` the half-word brought down. The correction loop keeps `q * vn1 + rhat = n`.
-/
namespace Sys2Proof.Machine

/-- The quotient fits a half-word, because the partial dividend is below the divisor. -/
theorem digit_lt_base {v n next : Nat} (hn : n < v) (hnext : next < 2 ^ 32) : (n * 2 ^ 32 + next) / v < 2 ^ 32 := by
  rw [Nat.div_lt_iff_lt_mul (Nat.zero_lt_of_lt hn)]
  omega

/-- What the top half-word of the divisor contributes to the candidate's multiple stands in the dividend too, so that the low
half-word and the remainder decide whether the multiple is above the dividend. -/
theorem lt_digit_mul_iff {vn1 vn0 n next q rhat : Nat} (hsplit : q * vn1 + rhat = n) :
    n * 2 ^ 32 + next < q * (vn1 * 2 ^ 32 + vn0) ↔ rhat * 2 ^ 32 + next < q * vn0 := by
  have hmul : q * (vn1 * 2 ^ 32 + vn0) = q * vn1 * 2 ^ 32 + q * vn0 := by ring
  rw [hmul]
  omega

section Digit

variable {vn1 vn0 n next q rhat : Nat} (hn : n < vn1 * 2 ^ 32 + vn0) (hnext : next < 2 ^ 32)
include hn hnext

/-- The loop lowers the candidate exactly while it is above the true digit. -/
theorem correction_test_iff (hsplit : q * vn1 + rhat = n) :
    (Config.DIV_BASE ≤ q ∨ rhat * Config.DIV_BASE + next < q * vn0) ↔
      (n * 2 ^ 32 + next) / (vn1 * 2 ^ 32 + vn0) < q := by
  have hbase := digit_lt_base hn hnext
  have htest : rhat * 2 ^ 32 + next < q * vn0 ↔ (n * 2 ^ 32 + next) / (vn1 * 2 ^ 32 + vn0) < q :=
    (lt_digit_mul_iff hsplit).symm.trans (Nat.div_lt_iff_lt_mul (Nat.zero_lt_of_lt hn)).symm
  rw [Config.DIV_BASE, htest]
  omega

/-- Once the remainder no longer fits a half-word, the loop may end: the candidate is a half-word, or its multiple of `vn1` alone
would pass `n`, so its multiple of `vn0` is below the remainder's place. -/
theorem le_digit_of_base_le_remainder (hvn0 : vn0 < 2 ^ 32) (hsplit : q * vn1 + rhat = n) (hrhat : Config.DIV_BASE ≤ rhat) :
    q ≤ (n * 2 ^ 32 + next) / (vn1 * 2 ^ 32 + vn0) := by
  rw [Config.DIV_BASE] at hrhat
  have hq : q < 2 ^ 32 := by
    by_contra hge
    have hpass : 2 ^ 32 * vn1 ≤ q * vn1 := Nat.mul_le_mul_right vn1 (Nat.not_lt.1 hge)
    omega
  have hlow : q * vn0 ≤ 2 ^ 32 * 2 ^ 32 := Nat.mul_le_mul hq.le hvn0.le
  rw [← Nat.not_lt, Nat.div_lt_iff_lt_mul (Nat.zero_lt_of_lt hn), lt_digit_mul_iff hsplit]
  omega

/-- From a candidate at most `fuel` above the true digit, the loop comes down to the true digit. -/
theorem correctDigit_eq_div (hvn0 : vn0 < 2 ^ 32) {fuel : Nat} (hsplit : q * vn1 + rhat = n)
    (hle : (n * 2 ^ 32 + next) / (vn1 * 2 ^ 32 + vn0) ≤ q)
    (hover : q ≤ (n * 2 ^ 32 + next) / (vn1 * 2 ^ 32 + vn0) + fuel) :
    correctDigit vn1 vn0 next fuel q rhat = (n * 2 ^ 32 + next) / (vn1 * 2 ^ 32 + vn0) := by
  induction fuel generalizing q rhat with
  | zero =>
    rw [Nat.add_zero] at hover
    exact Nat.le_antisymm hover hle
  | succ fuel ih =>
    rw [← Nat.add_assoc] at hover
    rw [correctDigit, if_congr (correction_test_iff hn hnext hsplit) rfl rfl]
    split
    case isFalse hdone => exact Nat.le_antisymm (Nat.not_lt.1 hdone) hle
    case isTrue habove =>
      have hstill := Nat.le_sub_one_of_lt habove
      have hlowered : (q - 1) * vn1 + (rhat + vn1) = n := by
        rw [← hsplit, ← Nat.sub_add_cancel (Nat.one_le_of_lt habove), Nat.add_sub_cancel]
        ring
      split
      case isTrue => exact ih hlowered hstill (Nat.sub_le_of_le_add hover)
      case isFalse hwide =>
        exact Nat.le_antisymm (le_digit_of_base_le_remainder hn hnext hvn0 hlowered (Nat.not_lt.1 hwide)) hstill

/-- The estimate is never too small: it leaves out the low half-word of the divisor. -/
theorem digit_le_estimate (hvn1 : 0 < vn1) : (n * 2 ^ 32 + next) / (vn1 * 2 ^ 32 + vn0) ≤ n / vn1 := by
  have hestimate : (n + 1) * 2 ^ 32 ≤ vn1 * (n / vn1 + 1) * 2 ^ 32 :=
    Nat.mul_le_mul_right _ (Nat.lt_mul_div_succ n hvn1)
  have hmul : (n / vn1 + 1) * (vn1 * 2 ^ 32 + vn0) = vn1 * (n / vn1 + 1) * 2 ^ 32 + (n / vn1 + 1) * vn0 := by ring
  rw [← Nat.lt_succ_iff, Nat.div_lt_iff_lt_mul (Nat.zero_lt_of_lt hn), hmul]
  omega

/-- With the divisor normalised, the estimate's multiple of the low half-word is at most two divisors, so the estimate is at most 2
too large. -/
theorem estimate_le_digit_add_two (hvn1 : 2 ^ 31 ≤ vn1) (hvn0 : vn0 < 2 ^ 32) :
    n / vn1 ≤ (n * 2 ^ 32 + next) / (vn1 * 2 ^ 32 + vn0) + 2 := by
  have hpos := Nat.zero_lt_of_lt hn
  have hestimate : n / vn1 * vn1 ≤ n := Nat.div_mul_le_self n vn1
  have hbound : n / vn1 < 2 ^ 32 + 2 := by
    rw [Nat.div_lt_iff_lt_mul (by omega)]
    omega
  have hlow : n / vn1 * vn0 ≤ (2 ^ 32 + 1) * (2 ^ 32 - 1) :=
    Nat.mul_le_mul (Nat.le_of_lt_succ hbound) (Nat.le_sub_one_of_lt hvn0)
  have hmul : n / vn1 * (vn1 * 2 ^ 32 + vn0) = n / vn1 * vn1 * 2 ^ 32 + n / vn1 * vn0 := by ring
  rw [← Nat.add_mul_div_right _ _ hpos, Nat.le_div_iff_mul_le hpos, hmul]
  omega

end Digit

end Sys2Proof.Machine
end

section
/-!
`quotientDigit` is division with remainder by a normalised divisor (43_division.md R115).
-/
namespace Sys2Proof.Machine

/-- A dividend less its quotient's multiple of the divisor, in words that wrap, is the remainder. -/
theorem ofNat_sub_ofNat_div_mul (n v : Nat) :
    BitVec.ofNat 64 n - BitVec.ofNat 64 (n / v * v) = BitVec.ofNat 64 (n % v) := by
  have hdiv : BitVec.ofNat 64 n = BitVec.ofNat 64 (n % v) + BitVec.ofNat 64 (n / v * v) := by
    rw [← BitVec.ofNat_add, Nat.mod_add_div']
  rw [hdiv, BitVec.add_sub_cancel]

section QuotientDigit

variable {v n64 : W64} {next32 : Nat} (hnorm : 2 ^ 63 ≤ v.toNat) (hn : n64.toNat < v.toNat) (hnext : next32 < 2 ^ 32)
include hnorm hn hnext

/-- The estimate lies between the true digit and the digit plus `DIV_MAX_OVERSHOOT`. -/
theorem digitEstimate_bounds :
    (n64.toNat * 2 ^ 32 + next32) / v.toNat ≤ digitEstimate v n64 ∧
      digitEstimate v n64 ≤ (n64.toNat * 2 ^ 32 + next32) / v.toNat + Config.DIV_MAX_OVERSHOOT := by
  have hv : v.toNat / 2 ^ 32 * 2 ^ 32 + v.toNat % 2 ^ 32 = v.toNat := Nat.div_add_mod' _ _
  have hvn1 : 2 ^ 31 ≤ v.toNat / 2 ^ 32 := by omega
  have hvn0 : v.toNat % 2 ^ 32 < 2 ^ 32 := Nat.mod_lt _ (by decide)
  rw [← hv] at hn
  have hlower := digit_le_estimate hn hnext (by omega)
  have hupper := estimate_le_digit_add_two hn hnext hvn1 hvn0
  rw [hv] at hlower hupper
  exact ⟨hlower, hupper⟩

/-- The partial remainder is taken modulo 2^64, and nothing is lost. -/
theorem quotientDigit_eq :
    quotientDigit v n64 next32 =
      ((n64.toNat * 2 ^ 32 + next32) / v.toNat, BitVec.ofNat 64 ((n64.toNat * 2 ^ 32 + next32) % v.toNat)) := by
  have hv : v.toNat / 2 ^ 32 * 2 ^ 32 + v.toNat % 2 ^ 32 = v.toNat := Nat.div_add_mod' _ _
  obtain ⟨hlower, hupper⟩ := digitEstimate_bounds hnorm hn hnext
  rw [← hv] at hn
  have hdigit := correctDigit_eq_div hn hnext (Nat.mod_lt _ (by decide)) (Nat.div_add_mod' n64.toNat (v.toNat / 2 ^ 32))
    (by rwa [hv]) (by rwa [hv])
  rw [hv] at hdigit
  simp only [quotientDigit, Config.DIV_BASE, digitEstimate, hdigit, ofNat_sub_ofNat_div_mul]

theorem toNat_quotientDigit :
    (quotientDigit v n64 next32).1 = (n64.toNat * 2 ^ 32 + next32) / v.toNat ∧
      (quotientDigit v n64 next32).2.toNat = (n64.toNat * 2 ^ 32 + next32) % v.toNat := by
  have hrem : (n64.toNat * 2 ^ 32 + next32) % v.toNat < 2 ^ 64 := (Nat.mod_lt _ (Nat.zero_lt_of_lt hn)).trans v.isLt
  rw [quotientDigit_eq hnorm hn hnext]
  exact ⟨rfl, (BitVec.toNat_ofNat _ 64).trans (Nat.mod_eq_of_lt hrem)⟩

/-- The digit and the partial remainder as a division with remainder. -/
theorem quotientDigit_euclidean :
    (quotientDigit v n64 next32).2.toNat + v.toNat * (quotientDigit v n64 next32).1 = n64.toNat * 2 ^ 32 + next32 ∧
      (quotientDigit v n64 next32).2.toNat < v.toNat := by
  obtain ⟨hdigit, hrem⟩ := toNat_quotientDigit hnorm hn hnext
  rw [hdigit, hrem]
  exact ⟨Nat.mod_add_div _ _, Nat.mod_lt _ (Nat.zero_lt_of_lt hn)⟩

end QuotientDigit

/-- Settles O35: the loop starts at an estimate its rounds can bring down to the true digit. -/
theorem digitEstimateOvershootsByAtMostTwo : Obligations.DigitEstimateOvershootsByAtMostTwo := by
  unfold Obligations.DigitEstimateOvershootsByAtMostTwo
  intro v n64 next32 hnorm hn hnext digit
  obtain ⟨hdigit, hrem⟩ := toNat_quotientDigit hnorm hn hnext
  have hbase : digit.1 < 2 ^ 32 := hdigit.trans_lt (digit_lt_base hn hnext)
  have hbounds := digitEstimate_bounds hnorm hn hnext
  rw [← hdigit] at hbounds
  exact ⟨hdigit, hrem, hbase, hbounds⟩

end Sys2Proof.Machine
end

section
/-!
The long division (43_division.md R113 to R117): dividend and divisor are shifted alike, so that the quotient stays what it was and
the remainder is shifted with them; the two digits divide the shifted dividend.
-/
namespace Sys2Proof.Machine

variable {x y : W128} {d v : W64}

/-- Steps 2 and 3 (R114, R115): the two digits of the quotient of `y` by a normalised divisor, put together, and the remainder. -/
def divideByDigits (v : W64) (y : W128) : Nat × W64 :=
  let first := quotientDigit v (hi y) ((lo y).toNat / 2 ^ 32)
  let second := quotientDigit v first.2 ((lo y).toNat % 2 ^ 32)
  (first.1 * 2 ^ 32 + second.1, second.2)

/-- The four steps of `longDivide`: both arms of R113 are the high limb of the shifted dividend. -/
theorem longDivide_eq (hshift : clz64 d < 64) :
    longDivide x d =
      (BitVec.ofNat 64 (divideByDigits (d <<< clz64 d) (x <<< clz64 d)).1,
        (divideByDigits (d <<< clz64 d) (x <<< clz64 d)).2 >>> clz64 d) := by
  have hun32 : (if clz64 d = 0 then hi x else (hi x <<< clz64 d) ||| (lo x >>> (64 - clz64 d))) = hi (x <<< clz64 d) := by
    split
    case isTrue hzero => rw [hzero, BitVec.shiftLeft_zero]
    case isFalse => exact (hi_shiftLeft_of_lt x hshift).symm
  simp only [longDivide, hun32, divideByDigits, lo_shiftLeft, Config.DIV_BASE]

/-- Each digit leaves the remainder to which the next half-word of the dividend is brought down. -/
theorem divideByDigits_euclidean (hnorm : 2 ^ 63 ≤ v.toNat) (hhi : hi y < v) :
    (divideByDigits v y).2.toNat + v.toNat * (divideByDigits v y).1 = y.toNat ∧ (divideByDigits v y).2.toNat < v.toNat := by
  obtain ⟨hfirst, hpartial⟩ :=
    quotientDigit_euclidean hnorm hhi (Nat.div_lt_of_lt_mul (lo y).isLt : (lo y).toNat / 2 ^ 32 < 2 ^ 32)
  obtain ⟨hsecond, hbound⟩ :=
    quotientDigit_euclidean hnorm hpartial (Nat.mod_lt _ (by decide) : (lo y).toNat % 2 ^ 32 < 2 ^ 32)
  have hlimbs : (hi y).toNat * 2 ^ 64 + (lo y).toNat = y.toNat := val_eq_toNat y
  have hhalves := Nat.div_add_mod' (lo y).toNat (2 ^ 32)
  refine ⟨?_, hbound⟩
  rw [divideByDigits]
  linear_combination hsecond + 2 ^ 32 * hfirst + hhalves + hlimbs

theorem toNat_divideByDigits (hnorm : 2 ^ 63 ≤ v.toNat) (hhi : hi y < v) :
    (divideByDigits v y).1 = y.toNat / v.toNat ∧ (divideByDigits v y).2.toNat = y.toNat % v.toNat := by
  obtain ⟨hquot, hrem⟩ := (Nat.div_mod_unique (Nat.zero_lt_of_lt hhi)).2 (divideByDigits_euclidean hnorm hhi)
  exact ⟨hquot.symm, hrem.symm⟩

theorem toNat_shiftLeft_of_lt {w k : Nat} {u : BitVec w} (h : u.toNat * 2 ^ k < 2 ^ w) :
    (u <<< k).toNat = u.toNat * 2 ^ k := by
  rw [BitVec.toNat_shiftLeft, Nat.shiftLeft_eq, Nat.mod_eq_of_lt h]

/-- Shifted by its leading zeros, a divisor keeps all its bits and has its top bit set (R113). -/
theorem toNat_normalised_divisor (hd : d ≠ 0) :
    (d <<< clz64 d).toNat = d.toNat * 2 ^ clz64 d ∧ 2 ^ 63 ≤ (d <<< clz64 d).toNat := by
  obtain ⟨hle, hlower, hupper⟩ := leadingZeroCountPlacesTheFirstSetBit d hd
  have hfits : d.toNat * 2 ^ clz64 d < 2 ^ 64 :=
    calc d.toNat * 2 ^ clz64 d < 2 ^ (64 - clz64 d) * 2 ^ clz64 d := Nat.mul_lt_mul_of_pos_right hupper (Nat.two_pow_pos _)
      _ = 2 ^ 64 := Nat.pow_sub_mul_pow 2 (hle.trans (by decide))
  have htop : 2 ^ 63 ≤ d.toNat * 2 ^ clz64 d :=
    calc 2 ^ 63 = 2 ^ (63 - clz64 d) * 2 ^ clz64 d := (Nat.pow_sub_mul_pow 2 hle).symm
      _ ≤ d.toNat * 2 ^ clz64 d := Nat.mul_le_mul_right _ hlower
  have hval := toNat_shiftLeft_of_lt hfits
  exact ⟨hval, hval ▸ htop⟩

/-- A dividend whose high limb is below the divisor keeps all its bits when the divisor keeps its own, and its high limb stays below
the divisor (R113). -/
theorem toNat_normalised_dividend {k : Nat} (hd : (d <<< k).toNat = d.toNat * 2 ^ k) (hlt : hi x < d) :
    (x <<< k).toNat = x.toNat * 2 ^ k ∧ hi (x <<< k) < d <<< k := by
  have hx : x.toNat < d.toNat * 2 ^ 64 := by
    rw [← Nat.div_lt_iff_lt_mul (Nat.two_pow_pos 64), ← toNat_hi]
    exact hlt
  have hbelow : x.toNat * 2 ^ k < (d <<< k).toNat * 2 ^ 64 := by
    rw [hd, Nat.mul_right_comm]
    exact Nat.mul_lt_mul_of_pos_right hx (Nat.two_pow_pos k)
  have hword := (d <<< k).isLt
  have hval : (x <<< k).toNat = x.toNat * 2 ^ k := toNat_shiftLeft_of_lt (by omega)
  refine ⟨hval, ?_⟩
  rw [BitVec.lt_def, toNat_hi, hval, Nat.div_lt_iff_lt_mul (Nat.two_pow_pos 64)]
  exact hbelow

/-- Settles O36: the shift cancels in the quotient, and the last step takes it back from the remainder. -/
theorem longDivisionMeetsTheContract : Obligations.LongDivisionMeetsTheContract := by
  unfold Obligations.LongDivisionMeetsTheContract
  intro x d hlt
  have hpow : 0 < 2 ^ clz64 d := Nat.two_pow_pos _
  have hd : d ≠ 0 := (BitVec.pos_iff_ne_zero d).1 (Nat.zero_lt_of_lt hlt)
  obtain ⟨hshift, -⟩ := leadingZeroCountPlacesTheFirstSetBit d hd
  obtain ⟨hv, hnorm⟩ := toNat_normalised_divisor hd
  obtain ⟨hy, hhi⟩ := toNat_normalised_dividend hv hlt
  obtain ⟨hquot, hrem⟩ := toNat_divideByDigits hnorm hhi
  rw [hv, hy, Nat.mul_div_mul_right _ _ hpow] at hquot
  rw [hv, hy, Nat.mul_mod_mul_right] at hrem
  have hback : ((divideByDigits (d <<< clz64 d) (x <<< clz64 d)).2 >>> clz64 d).toNat = x.toNat % d.toNat := by
    rw [BitVec.toNat_ushiftRight, hrem, Nat.shiftRight_eq_div_pow, Nat.mul_div_cancel _ hpow]
  rw [longDivide_eq (Nat.lt_succ_of_le hshift), div128to64_of_lt hlt, val_eq_toNat, hquot, ← hback, BitVec.ofNat_toNat,
    BitVec.setWidth_eq]

end Sys2Proof.Machine
end

section
/-!
The Newton steps as numbers (44_root_extraction.md R125, R132), the fixed-count loop as an iterate, and the four commands made of
them (R126, R127, R133, R135).
-/
namespace Sys2Proof.Machine

open Sys2Proof.Claims

/-- A word is written to `R.lo`, with `R.hi`, `S` and `ILL` zero (30_encoding.md R58). -/
theorem complete_respondWord (w : W64) (s : State) : complete (respondWord w) s = afterLegal s (pair 0 w) 0 :=
  complete_eq_afterLegal rfl s

theorem exec_sqrtIter (a : W128) (r : W64) (s : State) :
    exec (.sqrtIter a r) s = .next (afterLegal s (pair 0 (sqrtStep a r)) 0) := by
  rw [← complete_respondWord]
  rfl

theorem exec_isqrt (a : W128) (s : State) : exec (.isqrt a) s = .next (afterLegal s (pair 0 (isqrt a)) 0) := by
  rw [← complete_respondWord]
  rfl

theorem exec_cbrtIter (a : W128) (r : W64) (s : State) :
    exec (.cbrtIter a r) s = .next (afterLegal s (pair 0 (cbrtStep a r)) 0) := by
  rw [← complete_respondWord]
  rfl

theorem exec_icbrt (a : W128) (s : State) : exec (.icbrt a) s = .next (afterLegal s (pair 0 (icbrt a)) 0) := by
  rw [← complete_respondWord]
  rfl

theorem isqrt_of_ne_zero {x : W128} (hx : x ≠ 0) : isqrt x = isqrtFrom x (seedSqrt x) := if_neg hx

theorem icbrt_of_ne_zero {x : W128} (hx : x ≠ 0) : icbrt x = icbrtFrom x (seedCbrt x) := if_neg hx

/-- The quotient of `div128to128` for a non-zero divisor (43_division.md R118). -/
theorem toNat_div128to128_quotient (x : W128) {d : W64} (hd : d ≠ 0) :
    (div128to128 x d).1.toNat = x.toNat / d.toNat := by
  obtain ⟨hident, hrem⟩ := toNat_div128to128_euclidean x hd
  have hpos : 0 < d.toNat := BitVec.toNat_pos_of_ne_zero hd
  rw [hident, Nat.mul_comm, Nat.mul_add_div hpos, Nat.div_eq_of_lt hrem, Nat.add_zero]

/-- The end of either step: the sum at 128 bits, halved, its low 64 bits (R125, R132). -/
theorem toNat_lo_half_add128 (r : W64) (q : W128) :
    (lo (shr128 (add128 (pair 0 r) q) 1)).toNat = (r.toNat + q.toNat) % 2 ^ 128 / 2 % 2 ^ 64 := by
  have hpair : (pair 0 r).toNat = r.toNat := by simp
  rw [toNat_lo, toNat_shr128, toNat_add128, hpair, Nat.pow_one]

/-- A zero estimate's quotient is all ones, whatever the dividend, so either step from it gives all ones (R126, R133). -/
theorem sqrtStep_zero (x : W128) : sqrtStep x 0 = Config.SENTINEL64 := by
  rw [sqrtStep, div128to128_zero]
  decide

theorem cbrtStep_zero (x : W128) : cbrtStep x 0 = Config.SENTINEL64 := by
  simp only [cbrtStep, div128to128_zero]
  decide

theorem toNat_sqrtStep (x : W128) (r : W64) : (sqrtStep x r).toNat = sqrtStepNat x.toNat r.toNat := by
  by_cases hr : r = 0
  · rw [hr, sqrtStep_zero]
    rfl
  · have hpos : r.toNat ≠ 0 := (BitVec.toNat_pos_of_ne_zero hr).ne'
    rw [sqrtStep, toNat_lo_half_add128, toNat_div128to128_quotient x hr, sqrtStepNat, if_neg hpos]

theorem toNat_cbrtStep (x : W128) (r : W64) : (cbrtStep x r).toNat = cbrtStepNat x.toNat r.toNat := by
  by_cases hr : r = 0
  · rw [hr, cbrtStep_zero]
    rfl
  · have hpos : r.toNat ≠ 0 := (BitVec.toNat_pos_of_ne_zero hr).ne'
    rw [cbrtStep, toNat_lo_half_add128, toNat_div128to128_quotient _ hr, toNat_div128to128_quotient x hr, cbrtStepNat,
      if_neg hpos]

/-- The fixed-count loop is the iterate of its step, on the numbers. -/
theorem toNat_repeatStep {g : W64 → W64} {f : Nat → Nat} (hg : ∀ r, (g r).toNat = f r.toNat) (n : Nat) (r : W64) :
    (repeatStep g n r).toNat = f^[n] r.toNat := by
  induction n generalizing r with
  | zero => rfl
  | succ n ih => rw [repeatStep_succ, ih, hg, Function.iterate_succ_apply]

theorem toNat_isqrtFrom (x : W128) (seed : W64) : (isqrtFrom x seed).toNat = (sqrtStepNat x.toNat)^[8] seed.toNat :=
  toNat_repeatStep (toNat_sqrtStep x) 8 seed

theorem toNat_icbrtFrom (x : W128) (seed : W64) : (icbrtFrom x seed).toNat = (cbrtStepNat x.toNat)^[47] seed.toNat :=
  toNat_repeatStep (toNat_cbrtStep x) 47 seed

/-- Settles O37: the step's datapath as a number, a zero estimate among its cases. -/
theorem sqrtIterTakesOneNewtonStep : Obligations.SqrtIterTakesOneNewtonStep := by
  unfold Obligations.SqrtIterTakesOneNewtonStep
  refine ⟨fun c hop => ?_, fun a r s => ⟨sqrtStep a r, exec_sqrtIter a r s, toNat_sqrtStep a r⟩⟩
  simp only [decode, hop, operandA]

/-- Settles O38: the loop of `isqrtFrom` is the step's eighth iterate. -/
theorem isqrtTakesEightStepsFromTheSeed : Obligations.IsqrtTakesEightStepsFromTheSeed := by
  unfold Obligations.IsqrtTakesEightStepsFromTheSeed
  refine ⟨fun c hop => ?decodes, exec_isqrt 0, fun a s ha => ⟨isqrt a, exec_isqrt a s, ?steps⟩⟩
  case decodes => simp only [decode, hop, operandA]
  case steps => rw [isqrt_of_ne_zero ha, toNat_isqrtFrom]

/-- Settles O39: the step's datapath as a number, a zero estimate among its cases. -/
theorem cbrtIterTakesOneNewtonStep : Obligations.CbrtIterTakesOneNewtonStep := by
  unfold Obligations.CbrtIterTakesOneNewtonStep
  refine ⟨fun c hop => ?_, fun a r s => ⟨cbrtStep a r, exec_cbrtIter a r s, toNat_cbrtStep a r⟩⟩
  simp only [decode, hop, operandA]

/-- Settles O40: the loop of `icbrtFrom` is the step's iterate, and nothing is asked of its seed. -/
theorem icbrtTakesFortySevenStepsFromTheSeed : Obligations.IcbrtTakesFortySevenStepsFromTheSeed := by
  unfold Obligations.IcbrtTakesFortySevenStepsFromTheSeed
  refine ⟨fun c hop => ?decodes, exec_icbrt 0, fun a s ha => ⟨icbrt a, exec_icbrt a s, ?steps⟩⟩
  case decodes => simp only [decode, hop, operandA]
  case steps => rw [icbrt_of_ne_zero ha, toNat_icbrtFrom, seedCbrt]

end Sys2Proof.Machine
end

section
/-!
What a Newton step does near the root (44_root_extraction.md R126, R131, R135): never below the floor of the square root, back to
the floor from one above it, up from the floor only on `k^2 - 1`; and a perfect cube's root stays.
-/
namespace Sys2Proof.Machine

open Sys2Proof.Claims

variable {x r k : Nat}

/-- The wrap at 128 bits and the cut to a word lose nothing when the half fits a word (R125, R132). -/
theorem half_mod_of_half_lt {t : Nat} (hfits : t / 2 < 2 ^ 64) : t % 2 ^ 128 / 2 % 2 ^ 64 = t / 2 := by
  have hsum : t < 2 ^ 128 := by omega
  rw [Nat.mod_eq_of_lt hsum, Nat.mod_eq_of_lt hfits]

/-- A square-root step whose result fits a word is that of the numbers (R125). -/
theorem sqrtStepNat_of_lt (hr : r ≠ 0) (hfits : (r + x / r) / 2 < 2 ^ 64) : sqrtStepNat x r = (r + x / r) / 2 := by
  rw [sqrtStepNat, if_neg hr, half_mod_of_half_lt hfits]

/-- A cube-root step whose result fits a word is that of the numbers (R132). -/
theorem cbrtStepNat_of_lt (hr : r ≠ 0) (hfits : (r + x / r / r) / 2 < 2 ^ 64) :
    cbrtStepNat x r = (r + x / r / r) / 2 := by
  rw [cbrtStepNat, if_neg hr, half_mod_of_half_lt hfits]

/-- Estimate and quotient are never less than the root on average: `(2s - r) r <= s^2 <= x` for `s` the floor of the root. -/
theorem sqrt_le_newton (hr : r ≠ 0) : Nat.sqrt x ≤ (r + x / r) / 2 := by
  have hsq : Nat.sqrt x * Nat.sqrt x ≤ x := Nat.sqrt_le x
  have hquot : 2 * Nat.sqrt x - r ≤ x / r := by
    rw [Nat.le_div_iff_mul_le (Nat.pos_of_ne_zero hr)]
    refine le_trans ?_ hsq
    obtain hfar | hnear := Nat.le_total (2 * Nat.sqrt x) r
    · simp [Nat.sub_eq_zero_of_le hfar]
    · zify [hnear]
      nlinarith [sq_nonneg ((Nat.sqrt x : ℤ) - r)]
  omega

/-- From one above the floor the step is the floor. -/
theorem newton_succ_sqrt : (Nat.sqrt x + 1 + x / (Nat.sqrt x + 1)) / 2 = Nat.sqrt x := by
  have hupper : x / (Nat.sqrt x + 1) < Nat.sqrt x + 1 := Nat.div_lt_of_lt_mul (Nat.lt_succ_sqrt x)
  have hlower := sqrt_le_newton (x := x) (Nat.add_one_ne_zero (Nat.sqrt x))
  omega

/-- From the floor the step is the floor or one more, and one more only on one less than a square. -/
theorem newton_sqrt (hx : x ≠ 0) :
    (Nat.sqrt x + x / Nat.sqrt x) / 2 = Nat.sqrt x ∨
      ((Nat.sqrt x + x / Nat.sqrt x) / 2 = Nat.sqrt x + 1 ∧ x + 1 = (Nat.sqrt x + 1) ^ 2) := by
  have hpos : 0 < Nat.sqrt x := Nat.sqrt_pos.2 (Nat.pos_of_ne_zero hx)
  have hlower := sqrt_le_newton (x := x) hpos.ne'
  have hnext : x < (Nat.sqrt x + 1) * (Nat.sqrt x + 1) := Nat.lt_succ_sqrt x
  by_cases hsquare : x + 1 = (Nat.sqrt x + 1) ^ 2
  · have hupper : x / Nat.sqrt x < Nat.sqrt x + 3 := (Nat.div_lt_iff_lt_mul hpos).2 (by nlinarith)
    omega
  · have hlt : x + 1 < (Nat.sqrt x + 1) ^ 2 := by
      rw [sq] at hsquare ⊢
      omega
    have hupper : x / Nat.sqrt x < Nat.sqrt x + 2 := (Nat.div_lt_iff_lt_mul hpos).2 (by nlinarith)
    omega

/-- The floor of the root or one more. -/
def NearSqrt (x r : Nat) : Prop := r = Nat.sqrt x ∨ r = Nat.sqrt x + 1

/-- From the floor or one more the step stays there, and is the floor unless `x + 1` is a square; it fits a word when the root has
room (R131). -/
theorem sqrtStepNat_of_nearSqrt (hx : x ≠ 0) (hroot : Nat.sqrt x < 2 ^ 63) (hr : NearSqrt x r) :
    NearSqrt x (sqrtStepNat x r) ∧ ((∀ k, x + 1 ≠ k ^ 2) → sqrtStepNat x r = Nat.sqrt x) := by
  have hpos : 0 < Nat.sqrt x := Nat.sqrt_pos.2 (Nat.pos_of_ne_zero hx)
  obtain rfl | rfl := hr
  · obtain hfloor | ⟨hup, hsquare⟩ := newton_sqrt hx
    · rw [sqrtStepNat_of_lt hpos.ne' (by omega)]
      exact ⟨.inl hfloor, fun _ => hfloor⟩
    · rw [sqrtStepNat_of_lt hpos.ne' (by omega)]
      exact ⟨.inr hup, fun hnot => absurd hsquare (hnot _)⟩
  · have hfloor := newton_succ_sqrt (x := x)
    rw [sqrtStepNat_of_lt (Nat.add_one_ne_zero _) (by omega)]
    exact ⟨.inl hfloor, fun _ => hfloor⟩

/-- Any number of steps stays there, and one or more end on the floor unless `x + 1` is a square (R131). -/
theorem iterate_sqrtStepNat_of_nearSqrt (hx : x ≠ 0) (hroot : Nat.sqrt x < 2 ^ 63) (hr : NearSqrt x r) (n : Nat) :
    NearSqrt x ((sqrtStepNat x)^[n + 1] r) ∧
      ((∀ k, x + 1 ≠ k ^ 2) → (sqrtStepNat x)^[n + 1] r = Nat.sqrt x) := by
  induction n with
  | zero => exact sqrtStepNat_of_nearSqrt hx hroot hr
  | succ n ih =>
    rw [Function.iterate_succ_apply']
    exact sqrtStepNat_of_nearSqrt hx hroot ih.1

/-- Below the ceiling the root has two bits less than a word (R130). -/
theorem sqrt_lt_of_lt_ceiling (hx : x < Config.SQRT_CEILING) : Nat.sqrt x < 2 ^ 62 :=
  Nat.sqrt_lt'.2 (hx.trans_eq (by decide))

/-- `k^2 - 1` is `(k - 1) (k + 1)`, which gives both quotients of R126's cycle. -/
theorem newton_cycle (hk : 2 ≤ k) :
    (k - 1 + (k ^ 2 - 1) / (k - 1)) / 2 = k ∧ (k + (k ^ 2 - 1) / k) / 2 = k - 1 := by
  obtain ⟨j, rfl⟩ : ∃ j, k = j + 1 := ⟨k - 1, by omega⟩
  have hpos : 0 < j := by omega
  have hfactor : (j + 1) ^ 2 - 1 = j * (j + 2) := by simpa [Nat.mul_comm] using Nat.sq_sub_sq (j + 1) 1
  have hbelow : (j + 1) ^ 2 - 1 = (j + 1) * j + j := by
    rw [hfactor]
    ring
  have hquotBelow : ((j + 1) ^ 2 - 1) / j = j + 2 := by rw [hfactor, Nat.mul_div_cancel_left _ hpos]
  have hquot : ((j + 1) ^ 2 - 1) / (j + 1) = j := by
    rw [hbelow, Nat.mul_add_div (Nat.succ_pos j), Nat.div_eq_of_lt (Nat.lt_succ_self j), Nat.add_zero]
  rw [Nat.add_sub_cancel, hquotBelow, hquot]
  omega

/-- Settles O41: the step's number is the average of estimate and quotient, which is at least the floor, and on `k^2 - 1` is `k` or
`k - 1`. -/
theorem sqrtStepIsNeverBelowTheFloorAndCycles : Obligations.SqrtStepIsNeverBelowTheFloorAndCycles := by
  unfold Obligations.SqrtStepIsNeverBelowTheFloorAndCycles
  refine ⟨fun x r hr hfits => ?floor, fun k hk hlt => ?cycle⟩
  case floor =>
    have hpos : r.toNat ≠ 0 := (BitVec.toNat_pos_of_ne_zero hr).ne'
    rw [toNat_sqrtStep, sqrtStepNat_of_lt hpos hfits]
    exact sqrt_le_newton hpos
  case cycle =>
    obtain ⟨hup, hdown⟩ := newton_cycle hk
    have hsq : k ^ 2 - 1 < 2 ^ 128 :=
      (Nat.sub_le _ _).trans_lt (Nat.pow_lt_pow_left hlt (by decide) : k ^ 2 < (2 ^ 64) ^ 2)
    have hradicand : (BitVec.ofNat 128 (k ^ 2 - 1)).toNat = k ^ 2 - 1 := Nat.mod_eq_of_lt hsq
    have hk' : (BitVec.ofNat 64 k).toNat = k := Nat.mod_eq_of_lt hlt
    have hpred : (BitVec.ofNat 64 (k - 1)).toNat = k - 1 := Nat.mod_eq_of_lt (by omega)
    constructor <;> apply BitVec.eq_of_toNat_eq
    · rw [toNat_sqrtStep, hradicand, hpred, hk', sqrtStepNat_of_lt (by omega) (by omega), hup]
    · rw [toNat_sqrtStep, hradicand, hpred, hk', sqrtStepNat_of_lt (by omega) (by omega), hdown]

/-- Settles O42: the floor and its successor are closed under the step. -/
theorem eightStepsStayWithinOneOfTheFloor : Obligations.EightStepsStayWithinOneOfTheFloor := by
  unfold Obligations.EightStepsStayWithinOneOfTheFloor
  intro x r hx hceiling hr
  have hx' : x.toNat ≠ 0 := (BitVec.toNat_pos_of_ne_zero hx).ne'
  rw [toNat_isqrtFrom]
  exact iterate_sqrtStepNat_of_nearSqrt hx' ((sqrt_lt_of_lt_ceiling hceiling).trans (by decide)) hr 7

/-- Settles O44: dividing `k^3` twice by `k` leaves `k`, the average of `k` and `k`. -/
theorem perfectCubeIsAFixedPoint : Obligations.PerfectCubeIsAFixedPoint := by
  unfold Obligations.PerfectCubeIsAFixedPoint
  intro k hk hcube
  have hlt : k < 2 ^ 64 :=
    lt_of_pow_lt_pow_left₀ 3 (Nat.zero_le _) (hcube.trans (by decide))
  have hroot : (BitVec.ofNat 64 k).toNat = k := Nat.mod_eq_of_lt hlt
  have hradicand : (BitVec.ofNat 128 (k ^ 3)).toNat = k ^ 3 := Nat.mod_eq_of_lt hcube
  have hquot : k ^ 3 / k / k = k := by
    rw [Nat.div_div_eq_div_mul, pow_succ', sq, Nat.mul_div_cancel _ (Nat.mul_pos hk hk)]
  have hstep : cbrtStep (BitVec.ofNat 128 (k ^ 3)) (BitVec.ofNat 64 k) = BitVec.ofNat 64 k := by
    apply BitVec.eq_of_toNat_eq
    rw [toNat_cbrtStep, hradicand, hroot, cbrtStepNat_of_lt (by omega) (by omega), hquot]
    omega
  refine ⟨hstep, ?_⟩
  exact repeatStep_keeps (P := (· = BitVec.ofNat 64 k)) (fun r hr => by rw [hr, hstep]) Config.CBRT_ITERS _ rfl

end Sys2Proof.Machine
end

section
/-!
How fast the Newton steps close in on the square root (44_root_extraction.md R131). Beside `c = floor + 1`, an excess `u = r - c`
becomes less than `u^2 / 2r`, so an excess of `c / G` becomes one of at most `c / (2 G^2)`; from an estimate within a factor of 4
seven steps reach the floor or one more.
-/
namespace Sys2Proof.Machine

open Sys2Proof.Claims

variable {x r c G : Nat}

/-- The average of estimate and quotient, without the divisions. -/
theorem two_mul_mul_newton_le (x r : Nat) : 2 * (r * ((r + x / r) / 2)) ≤ r * r + x := by
  have hquot : r * (x / r) ≤ x := Nat.mul_div_le x r
  have hhalf : (r + x / r) / 2 * 2 ≤ r + x / r := Nat.div_mul_le_self _ 2
  have hscaled := Nat.mul_le_mul_left r hhalf
  linarith

/-- A bound on a step's number, from a quadratic inequality in the estimate. -/
theorem mul_newton_le {n bound : Nat} (hroot : x < c * c) (hquad : n * (r * r + c * c) ≤ 2 * (r * bound)) :
    n * ((r + x / r) / 2) ≤ bound := by
  have hstep := two_mul_mul_newton_le x r
  generalize (r + x / r) / 2 = r' at *
  by_contra! hgt
  have hn : 0 < n := Nat.pos_of_mul_pos_right (Nat.zero_lt_of_lt hgt)
  have : 2 * (r * bound) < 2 * (r * bound) :=
    calc 2 * (r * bound) ≤ 2 * (r * (n * r')) := by gcongr
      _ = n * (2 * (r * r')) := by ring
      _ ≤ n * (r * r + x) := by gcongr
      _ < n * (r * r + c * c) := by gcongr
      _ ≤ 2 * (r * bound) := hquad
  exact lt_irrefl _ this

/-- From between half of `c` and four times `c` a step comes to at most 9/4 of `c`: `(2r - c) (4c - r)` is not negative. -/
theorem newton_le_of_within_factor_four (hroot : x < c * c) (hlow : c ≤ 2 * r) (hhigh : r ≤ 4 * c) :
    4 * ((r + x / r) / 2) ≤ 9 * c := by
  apply mul_newton_le hroot
  zify at *
  nlinarith [mul_nonneg (sub_nonneg.2 hlow) (sub_nonneg.2 hhigh)]

/-- From between half of `c` and 9/4 of `c` a step comes to at most 3/2 of `c`: `(2r - c) (9c - 4r)` is not negative. -/
theorem newton_le_of_le_nine_quarters (hroot : x < c * c) (hlow : c ≤ 2 * r) (hhigh : 4 * r ≤ 9 * c) :
    2 * ((r + x / r) / 2) ≤ 3 * c := by
  apply mul_newton_le hroot
  zify at *
  nlinarith [mul_nonneg (sub_nonneg.2 hlow) (sub_nonneg.2 hhigh)]

/-- Above `c` a step squares the relative excess and halves it: `2 r v < u^2` for the excesses `u` before and `v` after it. -/
theorem newton_squares_excess (hroot : x < c * c) (habove : c ≤ r) (hclose : G * (r - c) ≤ c) :
    2 * G * G * ((r + x / r) / 2 - c) ≤ c := by
  obtain ⟨u, rfl⟩ := Nat.exists_eq_add_of_le habove
  rw [Nat.add_sub_cancel_left] at hclose
  have hstep := two_mul_mul_newton_le x (c + u)
  generalize (c + u + x / (c + u)) / 2 = r' at *
  obtain hle | hge := Nat.le_total r' c
  · simp [Nat.sub_eq_zero_of_le hle]
  · obtain ⟨v, rfl⟩ := Nat.exists_eq_add_of_le hge
    have hsquare : 2 * (c * v) ≤ u * u := by nlinarith [Nat.zero_le (u * v)]
    have hpos : 0 < c := Nat.pos_of_mul_pos_right (Nat.zero_lt_of_lt hroot)
    rw [Nat.add_sub_cancel_left]
    refine Nat.le_of_mul_le_mul_left ?_ hpos
    calc c * (2 * G * G * v) = G * G * (2 * (c * v)) := by ring
      _ ≤ G * G * (u * u) := by gcongr
      _ = G * u * (G * u) := by ring
      _ ≤ c * c := by gcongr

/-- The estimate is at least the floor of the root and exceeds `floor + 1` by at most a `G`-th part of it. -/
def CloseAbove (x G r : Nat) : Prop :=
  Nat.sqrt x ≤ r ∧ G * (r - (Nat.sqrt x + 1)) ≤ Nat.sqrt x + 1

/-- Within less than 1 of `floor + 1` there is only the floor and `floor + 1`. -/
theorem nearSqrt_of_closeAbove (h : CloseAbove x G r) (hG : Nat.sqrt x + 1 < G) : NearSqrt x r := by
  obtain ⟨hlow, hexcess⟩ := h
  have hzero : r - (Nat.sqrt x + 1) = 0 := by
    by_contra hne
    exact absurd (Nat.le_mul_of_pos_right G (Nat.pos_of_ne_zero hne)) (by omega)
  unfold NearSqrt
  omega

section Steps
variable (hx : x ≠ 0) (hroot : Nat.sqrt x < 2 ^ 62)
include hx hroot

/-- A step on a close estimate fits a word and is closer. -/
theorem sqrtStepNat_of_closeAbove (hG : 0 < G) (hr : CloseAbove x G r) : CloseAbove x (2 * G * G) (sqrtStepNat x r) := by
  obtain ⟨hlow, hexcess⟩ := hr
  have hpos : 0 < Nat.sqrt x := Nat.sqrt_pos.2 (Nat.pos_of_ne_zero hx)
  have hr0 : r ≠ 0 := by omega
  obtain habove | hbelow := Nat.le_total (Nat.sqrt x + 1) r
  · have hcloser := newton_squares_excess (Nat.lt_succ_sqrt x) habove hexcess
    have hexcess' : (r + x / r) / 2 - (Nat.sqrt x + 1) ≤ Nat.sqrt x + 1 :=
      (Nat.le_mul_of_pos_left _ (by positivity)).trans hcloser
    rw [sqrtStepNat_of_lt hr0 (by omega)]
    exact ⟨sqrt_le_newton hr0, hcloser⟩
  · have hnear : NearSqrt x r := by
      unfold NearSqrt
      omega
    obtain ⟨hstep | hstep, -⟩ := sqrtStepNat_of_nearSqrt hx (hroot.trans (by decide)) hnear <;> simp [CloseAbove, hstep]

/-- The first two steps from an estimate within a factor of 4, to 9/4 and to 3/2 of `floor + 1`. -/
theorem closeAbove_of_within_factor_four (hlow : Nat.sqrt x + 1 ≤ 2 * r) (hhigh : r ≤ 4 * (Nat.sqrt x + 1)) :
    CloseAbove x 2 (sqrtStepNat x (sqrtStepNat x r)) := by
  have hpos : 0 < Nat.sqrt x := Nat.sqrt_pos.2 (Nat.pos_of_ne_zero hx)
  have hnext : x < (Nat.sqrt x + 1) * (Nat.sqrt x + 1) := Nat.lt_succ_sqrt x
  have hr0 : r ≠ 0 := by omega
  have hfirst := newton_le_of_within_factor_four hnext hlow hhigh
  have hfloor := sqrt_le_newton (x := x) hr0
  rw [sqrtStepNat_of_lt (r := r) hr0 (by omega)]
  generalize (r + x / r) / 2 = r' at *
  have hr' : r' ≠ 0 := by omega
  have hsecond := newton_le_of_le_nine_quarters hnext (by omega) hfirst
  rw [sqrtStepNat_of_lt hr' (by omega)]
  exact ⟨sqrt_le_newton hr', by omega⟩

/-- Every step from a close estimate doubles the number of leading bits that are right, and one more. -/
theorem iterate_closeAbove (hr : CloseAbove x 2 r) (n : Nat) :
    CloseAbove x (2 ^ (2 ^ (n + 1) - 1)) ((sqrtStepNat x)^[n] r) := by
  induction n with
  | zero => exact hr
  | succ n ih =>
    have hcloser := sqrtStepNat_of_closeAbove hx hroot (Nat.two_pow_pos _) ih
    have hexp : 2 ^ (n + 1 + 1) - 1 = 1 + (2 ^ (n + 1) - 1) + (2 ^ (n + 1) - 1) := by
      have hpos := Nat.two_pow_pos (n + 1)
      rw [pow_succ 2 (n + 1)]
      omega
    rwa [Function.iterate_succ_apply', hexp, pow_add, pow_add, pow_one]

/-- Seven steps from an estimate within a factor of 4: two to come close, and five after them. -/
theorem nearSqrt_iterate_seven (hlow : Nat.sqrt x + 1 ≤ 2 * r) (hhigh : r ≤ 4 * (Nat.sqrt x + 1)) :
    NearSqrt x ((sqrtStepNat x)^[7] r) := by
  have hclose := iterate_closeAbove hx hroot (closeAbove_of_within_factor_four hx hroot hlow hhigh) 5
  rw [Function.iterate_succ_apply, Function.iterate_succ_apply]
  exact nearSqrt_of_closeAbove hclose (by omega)

end Steps

end Sys2Proof.Machine
end

section
/-!
Rounding and conversion to binary64 (00_scope.md R13, 45_conversion.md R146), as far as powers of two: the pattern of a number is
between those of the powers of two next to it.
-/
namespace Sys2Proof.Machine

variable {m k e i p n : Nat} {x : W128}

/-- A binary64 pattern of a number from `2^i` to `2^(i + 1)`, both included (00_scope.md R13). -/
def InBinade (i p : Nat) : Prop := (1023 + i) * 2 ^ 52 ≤ p ∧ p ≤ (1024 + i) * 2 ^ 52

/-- Dividing an `m` of `n + j + 1` bits by `2^j` and rounding leaves `n + 1` bits, or carries into the power of two above. -/
theorem roundDiv_two_pow_bounds {j : Nat} (hlow : 2 ^ (n + j) ≤ m) (hhigh : m < 2 ^ (n + j + 1)) :
    2 ^ n ≤ roundDiv m (2 ^ j) ∧ roundDiv m (2 ^ j) ≤ 2 ^ (n + 1) := by
  have hpos : 0 < 2 ^ j := Nat.two_pow_pos j
  have hquotLow : 2 ^ n ≤ m / 2 ^ j := by rwa [Nat.le_div_iff_mul_le hpos, ← pow_add]
  have hquotHigh : m / 2 ^ j < 2 ^ (n + 1) := by rwa [Nat.div_lt_iff_lt_mul hpos, ← pow_add, Nat.add_right_comm]
  obtain ⟨-, hround, -⟩ | ⟨-, hround, -⟩ := roundDiv_cases m (2 ^ j) <;> omega

/-- The significand to which `FpFormat.round` rounds `m * 2^k` at the exponent field `e`, before a carry out of it (R13). -/
def roundedSignificand (m k e : Nat) : Nat := if e ≤ k then m * 2 ^ (k - e) else roundDiv m (2 ^ (e - k))

/-- A significand rounded at the field that leaves it `n + 1` bits has so many, or is the power of two above. -/
theorem roundedSignificand_bounds (hm : m ≠ 0) (hlog : Nat.log2 m + k = n + e) :
    2 ^ n ≤ roundedSignificand m k e ∧ roundedSignificand m k e ≤ 2 ^ (n + 1) := by
  have hlow : 2 ^ Nat.log2 m ≤ m := Nat.log2_self_le hm
  have hhigh : m < 2 ^ (Nat.log2 m + 1) := Nat.lt_log2_self
  unfold roundedSignificand
  split_ifs with hexact
  · have hn : n = Nat.log2 m + (k - e) := by omega
    rw [hn, Nat.add_right_comm, pow_add, pow_add]
    exact ⟨by gcongr, by gcongr⟩
  · have hlog' : Nat.log2 m = n + (e - k) := by omega
    rw [hlog'] at hlow hhigh
    exact roundDiv_two_pow_bounds hlow hhigh

/-- The rounded pattern of a number that is not subnormal (R13). -/
theorem round_eq (hm : m ≠ 0) (hlog : Nat.log2 m + k = 52 + e) (he : 1 ≤ e) :
    binary64.round m k = min ((e - 1) * 2 ^ 52 + roundedSignificand m k e) ((2 ^ 11 - 1) * 2 ^ 52) := by
  have hexp : max 1 (Nat.log2 m + k - binary64.fracBits) = e := by
    simp only [binary64]
    omega
  rw [FpFormat.round, if_neg hm, hexp]
  rfl

/-- A number's pattern is in the binade of its leading bit: a carry out of the significand ends at the next power of two (R13). -/
theorem round_inBinade (hm : m ≠ 0) (hlog : Nat.log2 m + k = 1075 + i) (hmax : i < 1023) :
    InBinade i (binary64.round m k) := by
  have hlog' : Nat.log2 m + k = 52 + (1023 + i) := by omega
  obtain ⟨hlow, hhigh⟩ := roundedSignificand_bounds hm hlog'
  rw [round_eq hm hlog' (by omega)]
  unfold InBinade
  omega

theorem rne_inBinade (hn : n ≠ 0) (hlog : Nat.log2 n < 1023) : InBinade (Nat.log2 n) (binary64.rne n) :=
  round_inBinade hn (Nat.add_comm _ _) hlog

/-- Adding `k` to the exponent field moves a pattern up by `k` binades (45_conversion.md R146). -/
theorem scale_inBinade (hp : InBinade i p) (hik : i + k < 1023) : InBinade (i + k) (binary64.scale p k) := by
  obtain ⟨hlow, hhigh⟩ := hp
  have hexp : ¬ 2 ^ 11 - 1 ≤ binary64.exponentOf p + k := by
    simp only [FpFormat.exponentOf, binary64]
    omega
  have hscale : binary64.scale p k = p + k * 2 ^ 52 := if_neg hexp
  unfold InBinade
  omega

theorem log2_eq_log2_div_two_pow_add (h : n / 2 ^ k ≠ 0) : Nat.log2 n = Nat.log2 (n / 2 ^ k) + k := by
  have hpos : 0 < 2 ^ k := Nat.two_pow_pos k
  have hlow : 2 ^ Nat.log2 (n / 2 ^ k) ≤ n / 2 ^ k := Nat.log2_self_le h
  have hhigh : n / 2 ^ k < 2 ^ (Nat.log2 (n / 2 ^ k) + 1) := Nat.lt_log2_self
  rw [Nat.le_div_iff_mul_le hpos, ← pow_add] at hlow
  rw [Nat.div_lt_iff_lt_mul hpos, ← pow_add, Nat.add_right_comm] at hhigh
  exact (Nat.log2_eq_iff (by rintro rfl; simp at h)).2 ⟨hlow, hhigh⟩

/-- Normalising an operand whose high limb is not zero brings its leading bit to the top of the pair (45_conversion.md R146). -/
theorem two_pow_le_hi_shl128_clz64 (hx : hi x ≠ 0) : 2 ^ 63 ≤ (hi (shl128 x (clz64 (hi x)))).toNat := by
  obtain ⟨hshift, -⟩ := leadingZeroCountPlacesTheFirstSetBit (hi x) hx
  obtain ⟨-, htop⟩ := toNat_normalised_divisor hx
  rw [shl128_eq_shiftLeft, hi_shiftLeft_of_lt x (Nat.lt_succ_of_le hshift), BitVec.toNat_or]
  exact htop.trans Nat.left_le_or

/-- The converter keeps the binade of its operand (45_conversion.md R146). -/
theorem u128ToFp_inBinade (hx : x ≠ 0) : InBinade (Nat.log2 x.toNat) (u128ToFp binary64 x) := by
  have hx' : x.toNat ≠ 0 := (BitVec.toNat_pos_of_ne_zero hx).ne'
  unfold u128ToFp
  split_ifs with hhi
  · have hlimbs : (hi x).toNat * 2 ^ 64 + (lo x).toNat = x.toNat := val_eq_toNat x
    have hlo : (lo x).toNat = x.toNat := by simpa [hhi] using hlimbs
    have hlog : Nat.log2 x.toNat < 64 := (Nat.log2_lt hx').2 (hlo ▸ (lo x).isLt)
    rw [hlo]
    exact rne_inBinade hx' (by omega)
  · have hpos : (hi x).toNat ≠ 0 := (BitVec.toNat_pos_of_ne_zero hhi).ne'
    have hlogHi : Nat.log2 (hi x).toNat < 64 := (Nat.log2_lt hpos).2 (hi x).isLt
    have hlog : Nat.log2 x.toNat = 63 + (64 - clz64 (hi x)) := by
      rw [log2_eq_log2_div_two_pow_add (k := 64) (by rwa [← toNat_hi]), ← toNat_hi, clz64_of_ne_zero hhi]
      omega
    have htop := two_pow_le_hi_shl128_clz64 hhi
    have hword := (hi (shl128 x (clz64 (hi x)))).isLt
    have hne : (hi (shl128 x (clz64 (hi x)))).toNat ≠ 0 := by omega
    have hlogTop : Nat.log2 (hi (shl128 x (clz64 (hi x)))).toNat = 63 := (Nat.log2_eq_iff hne).2 ⟨htop, hword⟩
    rw [hlog]
    exact scale_inBinade (hlogTop ▸ rne_inBinade hne (by omega)) (by omega)

end Sys2Proof.Machine
end

section
/-!
The default seed (44_root_extraction.md R128, R129), as far as powers of two, and with it the whole of ISQRT (R131): the square root
and the truncation keep the seed within a factor of 4 of the root, which is near enough for seven of the eight steps.
-/
namespace Sys2Proof.Machine

variable {m e i p n : Nat} {x : W128}

/-- Digit by digit, the square root stays the largest whose square is not above `m` and whose lower digits are still zero. -/
theorem sqrtDigits_eq_sqrt (m bits r : Nat) (hlow : r * r ≤ m) (hhigh : m < (r + 2 ^ bits) * (r + 2 ^ bits)) :
    sqrtDigits m bits r = Nat.sqrt m := by
  induction bits generalizing r with
  | zero => exact Nat.eq_sqrt.2 ⟨hlow, hhigh⟩
  | succ bits ih =>
    rw [pow_succ, Nat.mul_two, ← Nat.add_assoc] at hhigh
    rw [sqrtDigits]
    split_ifs with hfits
    · exact ih _ hfits hhigh
    · exact ih _ hlow (Nat.not_le.1 hfits)

theorem floorSqrt_eq_sqrt (hm : m < 2 ^ 164) : floorSqrt m = Nat.sqrt m :=
  sqrtDigits_eq_sqrt m 82 0 (Nat.zero_le m) (by omega)

/-- The integer root of a radicand of 161 or 162 bits, one more bit appended to it, has 82 bits (R128). -/
theorem log2_two_mul_sqrt_add {radicand sticky : Nat} (hlow : 2 ^ 160 ≤ radicand) (hhigh : radicand < 2 ^ 162)
    (hsticky : sticky ≤ 1) : Nat.log2 (2 * floorSqrt radicand + sticky) = 81 := by
  have hrootLow : 2 ^ 80 ≤ Nat.sqrt radicand := Nat.le_sqrt'.2 (hlow.trans_eq' (by decide))
  have hrootHigh : Nat.sqrt radicand < 2 ^ 81 := Nat.sqrt_lt'.2 (hhigh.trans_eq (by decide))
  rw [floorSqrt_eq_sqrt (hhigh.trans (by decide)), Nat.log2_eq_iff (by omega)]
  omega

/-- What `sqrtRound` rounds: the integer root of a radicand of 161 or 162 bits, one more bit appended to it (R128). -/
theorem sqrtRound_eq (hlow : 2 ^ 52 ≤ m) (hhigh : m < 2 ^ 53) (e : Nat) :
    ∃ radicand sticky, 2 ^ 160 ≤ radicand ∧ radicand < 2 ^ 162 ∧ sticky ≤ 1 ∧
      sqrtRound m e = binary64.round (2 * floorSqrt radicand + sticky) ((e + 1075) / 2 - 55) := by
  refine ⟨(if (e + 1075) % 2 = 0 then m else 2 * m) * 2 ^ 108, _, ?low, ?high, ?sticky, rfl⟩
  case low => split <;> omega
  case high => split <;> omega
  case sticky => exact (ite_le_sup _ _ _).trans (by decide)

/-- The square root of a number that is `2^(e - 1023)` or more and less than twice that has half of its exponent (R128). -/
theorem sqrtRound_inBinade (hlow : 2 ^ 52 ≤ m) (hhigh : m < 2 ^ 53) (he : 1023 ≤ e) (he' : e < 2047) :
    InBinade ((e - 1023) / 2) (sqrtRound m e) := by
  obtain ⟨radicand, sticky, hradLow, hradHigh, hsticky, hround⟩ := sqrtRound_eq hlow hhigh e
  have hlog := log2_two_mul_sqrt_add hradLow hradHigh hsticky
  have hne : 2 * floorSqrt radicand + sticky ≠ 0 := by
    intro hzero
    simp [hzero] at hlog
  rw [hround]
  exact round_inBinade hne (by omega) (by omega)

/-- A pattern of a binade is that of a normal number: one of the binade's, or the power of two above it. -/
theorem unpack_of_inBinade (hp : InBinade i p) (hmax : i < 1022) :
    ∃ m e, binary64.unpack p = .finite false m e ∧ 2 ^ 52 ≤ m ∧ m < 2 ^ 53 ∧
      (e = 1023 + i ∨ e = 1024 + i ∧ m = 2 ^ 52) := by
  obtain ⟨hlow, hhigh⟩ := hp
  have hsign : binary64.signOf p = false := by
    simp only [FpFormat.signOf, binary64, beq_eq_false_iff_ne]
    omega
  have hexp : binary64.exponentOf p = p / 2 ^ 52 := by
    simp only [FpFormat.exponentOf, binary64]
    omega
  have hunpack : binary64.unpack p = .finite false (2 ^ 52 + p % 2 ^ 52) (p / 2 ^ 52) := by
    rw [FpFormat.unpack, hexp, hsign, if_neg (by simp only [binary64]; omega), if_neg (by omega)]
    rfl
  exact ⟨_, _, hunpack, by omega, by omega, by omega⟩

theorem toNat_ofNat_of_inBinade (hp : InBinade i p) (hmax : i < 1023) : (BitVec.ofNat 64 p).toNat = p := by
  obtain ⟨-, hhigh⟩ := hp
  exact Nat.mod_eq_of_lt (by omega)

/-- The square root of a positive number's pattern (R128). -/
theorem fsqrt_of_unpack {w : W64} (hw : binary64.unpack w.toNat = .finite false m e) (hm : m ≠ 0) :
    fsqrt w = BitVec.ofNat 64 (sqrtRound m e) := by
  rw [fsqrt, hw]
  exact (if_neg hm).trans (if_neg Bool.false_ne_true)

/-- The truncation of a number that fits a word (R129). -/
theorem f64ToU64Sat_of_unpack {w : W64} (hw : binary64.unpack w.toNat = .finite false m e)
    (hfits : m * 2 ^ e < 2 ^ 64 * binary64.unit) : f64ToU64Sat w = BitVec.ofNat 64 (m * 2 ^ e / binary64.unit) := by
  rw [f64ToU64Sat, hw]
  exact (if_neg Bool.false_ne_true).trans (if_neg (Nat.not_le.2 hfits))

/-- The square root of a number of a binade is in the binade of half the exponent, or in the next, where the root of the power of
two above an odd binade is (R128). -/
theorem toNat_fsqrt_inBinade {w : W64} (hw : InBinade i w.toNat) (hmax : i < 1022) :
    InBinade (i / 2) (fsqrt w).toNat ∨ InBinade (i / 2 + 1) (fsqrt w).toNat := by
  obtain ⟨m, e, hunpack, hm, hm', he⟩ := unpack_of_inBinade hw hmax
  have hbinade : InBinade ((e - 1023) / 2) (sqrtRound m e) := sqrtRound_inBinade hm hm' (by omega) (by omega)
  rw [fsqrt_of_unpack hunpack (by omega), toNat_ofNat_of_inBinade hbinade (by omega)]
  obtain hhalf | hhalf : (e - 1023) / 2 = i / 2 ∨ (e - 1023) / 2 = i / 2 + 1 := by omega
  · exact .inl (hhalf ▸ hbinade)
  · exact .inr (hhalf ▸ hbinade)

theorem unit_eq_mul (f : FpFormat) : f.unit = 2 ^ f.bias * 2 ^ f.fracBits := Nat.pow_add 2 f.bias f.fracBits

/-- The number of a binade's pattern, in units of the format (R13). -/
theorem value_bounds_of_binade (hm : 2 ^ 52 ≤ m) (hm' : m < 2 ^ 53) (he : e = 1023 + i ∨ e = 1024 + i ∧ m = 2 ^ 52) :
    2 ^ i * binary64.unit ≤ m * 2 ^ e ∧ m * 2 ^ e ≤ 2 ^ (i + 1) * binary64.unit := by
  have hfrac : binary64.fracBits = 52 := rfl
  have hpow (j : Nat) : 2 ^ (1023 + j) = 2 ^ binary64.bias * 2 ^ j := Nat.pow_add 2 binary64.bias j
  rw [unit_eq_mul, hfrac]
  generalize 2 ^ binary64.bias = b at hpow ⊢
  obtain rfl | ⟨rfl, rfl⟩ := he
  · rw [hpow]
    constructor
    · calc 2 ^ i * (b * 2 ^ 52) = 2 ^ 52 * (b * 2 ^ i) := by ring
        _ ≤ m * (b * 2 ^ i) := by gcongr
    · calc m * (b * 2 ^ i) ≤ 2 ^ 53 * (b * 2 ^ i) := by gcongr
        _ = 2 ^ (i + 1) * (b * 2 ^ 52) := by ring
  · have hsucc : 1024 + i = 1023 + (i + 1) := by omega
    rw [hsucc, hpow]
    have hpower : 2 ^ 52 * (b * 2 ^ (i + 1)) = 2 ^ (i + 1) * (b * 2 ^ 52) := by ring
    rw [hpower]
    exact ⟨by gcongr <;> omega, le_rfl⟩

/-- Truncation of a number from `2^i` to `2^(i + 1)` gives a word from `2^i` to `2^(i + 1)` (R129). -/
theorem toNat_f64ToU64Sat_bounds {w : W64} (hw : InBinade i w.toNat) (hmax : i < 63) :
    2 ^ i ≤ (f64ToU64Sat w).toNat ∧ (f64ToU64Sat w).toNat ≤ 2 ^ (i + 1) := by
  obtain ⟨m, e, hunpack, hm, hm', he⟩ := unpack_of_inBinade hw (by omega)
  obtain ⟨hlow, hhigh⟩ := value_bounds_of_binade hm hm' he
  have htrunc := f64ToU64Sat_of_unpack hunpack
  have hunit : 0 < binary64.unit := Nat.two_pow_pos _
  have hword : 2 ^ (i + 1) < 2 ^ 64 := Nat.pow_lt_pow_right (by decide) (by omega)
  generalize binary64.unit = unit at *
  have hquotLow : 2 ^ i ≤ m * 2 ^ e / unit := (Nat.le_div_iff_mul_le hunit).2 hlow
  have hquotHigh : m * 2 ^ e / unit ≤ 2 ^ (i + 1) := Nat.div_le_of_le_mul (hhigh.trans_eq (Nat.mul_comm _ _))
  rw [htrunc (hhigh.trans_lt (Nat.mul_lt_mul_of_pos_right hword hunit)), BitVec.toNat_ofNat,
    Nat.mod_eq_of_lt (hquotHigh.trans_lt hword)]
  exact ⟨hquotLow, hquotHigh⟩

/-- The default seed is within a factor of 4 of a power of two not above the root (R128, R129). -/
theorem toNat_seedSqrt_bounds (hx : x ≠ 0) (hceiling : x.toNat < Config.SQRT_CEILING) :
    2 ^ (Nat.log2 x.toNat / 2) ≤ (seedSqrt x).toNat ∧ (seedSqrt x).toNat ≤ 4 * 2 ^ (Nat.log2 x.toNat / 2) := by
  have hx' : x.toNat ≠ 0 := (BitVec.toNat_pos_of_ne_zero hx).ne'
  have hlog : Nat.log2 x.toNat < 124 := (Nat.log2_lt hx').2 hceiling
  have hfp := u128ToFp_inBinade hx
  have hconverted : InBinade (Nat.log2 x.toNat) (u128ToF64 x).toNat := by
    rwa [u128ToF64, toNat_ofNat_of_inBinade hfp (by omega)]
  obtain hroot | hroot := toNat_fsqrt_inBinade hconverted (by omega)
  · have hseed := toNat_f64ToU64Sat_bounds hroot (by omega)
    rw [pow_succ] at hseed
    unfold seedSqrt
    omega
  · have hseed := toNat_f64ToU64Sat_bounds hroot (by omega)
    rw [pow_succ, pow_succ] at hseed
    unfold seedSqrt
    omega

/-- The root has half of the number's bits. -/
theorem sqrt_bounds_of_log2 (hn : n ≠ 0) : 2 ^ (Nat.log2 n / 2) ≤ Nat.sqrt n ∧ Nat.sqrt n < 2 * 2 ^ (Nat.log2 n / 2) := by
  constructor
  · rw [Nat.le_sqrt', ← pow_mul]
    exact (Nat.pow_le_pow_right (by decide) (by omega)).trans (Nat.log2_self_le hn)
  · rw [← pow_succ', Nat.sqrt_lt', ← pow_mul]
    exact Nat.lt_log2_self.trans_le (Nat.pow_le_pow_right (by decide) (by omega))

/-- Settles O43: the seed is within a factor of 4 of the root, so seven steps come to the floor or one more, and the eighth to the
floor unless `x + 1` is a square. -/
theorem isqrtIsTheFloorOrOneMore : Obligations.IsqrtIsTheFloorOrOneMore := by
  unfold Obligations.IsqrtIsTheFloorOrOneMore
  intro x hceiling
  by_cases hx : x = 0
  · have hzero : isqrt x = 0 := hx ▸ isqrt_zero
    rw [hzero, hx]
    simp
  · have hx' : x.toNat ≠ 0 := (BitVec.toNat_pos_of_ne_zero hx).ne'
    have hroot := sqrt_lt_of_lt_ceiling hceiling
    obtain ⟨hseedLow, hseedHigh⟩ := toNat_seedSqrt_bounds hx hceiling
    obtain ⟨hrootLow, hrootHigh⟩ := sqrt_bounds_of_log2 hx'
    have hseven := nearSqrt_iterate_seven hx' hroot (r := (seedSqrt x).toNat) (by omega) (by omega)
    rw [isqrt_of_ne_zero hx, toNat_isqrtFrom, Function.iterate_succ_apply']
    exact sqrtStepNat_of_nearSqrt hx' (hroot.trans (by decide)) hseven

end Sys2Proof.Machine
end

section
/-!
The formats' arithmetic for every format (00_scope.md R13), exact: rounding is monotone and leaves multiples alone, a rounded
significand is worth what its rounding leaves of the number, a pattern below +infinity stands for its fields, and +infinity caps the
rest.
-/
namespace Sys2Proof.Machine

variable {f : FpFormat} {m n d e k p : Nat}

theorem roundDiv_of_dvd (hd : 0 < d) (h : d ∣ n) : roundDiv n d = n / d := by
  have hrem : n % d = 0 := Nat.mod_eq_zero_of_dvd h
  obtain ⟨-, hround, -⟩ | ⟨hhalf, -⟩ := roundDiv_cases n d
  · exact hround
  · omega

theorem roundDiv_one (n : Nat) : roundDiv n 1 = n := by
  rw [roundDiv_of_dvd Nat.one_pos (Nat.one_dvd n), Nat.div_one]

theorem roundDiv_bounds (n d : Nat) : n / d ≤ roundDiv n d ∧ roundDiv n d ≤ n / d + 1 := by
  obtain ⟨-, hround, -⟩ | ⟨-, hround, -⟩ := roundDiv_cases n d <;> omega

/-- Rounding is monotone. With equal quotients only two ties could round in opposite order, and those round alike. -/
theorem roundDiv_le_roundDiv (d : Nat) (h : m ≤ n) : roundDiv m d ≤ roundDiv n d := by
  obtain hlt | heq := (Nat.div_le_div_right h : m / d ≤ n / d).lt_or_eq
  · exact (roundDiv_bounds m d).2.trans (hlt.trans_le (roundDiv_bounds n d).1)
  · have hrem : m % d ≤ n % d := by
      have hm := Nat.div_add_mod m d
      have hn := Nat.div_add_mod n d
      rw [heq] at hm
      omega
    obtain ⟨-, hdown, -⟩ | ⟨hhalf, hup, heven⟩ := roundDiv_cases m d
    · rw [hdown, heq]
      exact (roundDiv_bounds n d).1
    · obtain ⟨hhalf', hdown', heven'⟩ | ⟨-, hup', -⟩ := roundDiv_cases n d
      · omega
      · rw [hup, hup', heq]

/-- Both cases of the rounded significand in one: either power of two is 1. -/
theorem roundedSignificand_eq (m k e : Nat) : roundedSignificand m k e = roundDiv m (2 ^ (e - k)) * 2 ^ (k - e) := by
  unfold roundedSignificand
  split_ifs with hexact
  · rw [Nat.sub_eq_zero_of_le hexact, pow_zero, roundDiv_one]
  · rw [Nat.sub_eq_zero_of_le (Nat.le_of_not_le hexact), pow_zero, Nat.mul_one]

theorem roundedSignificand_le_roundedSignificand (h : m ≤ n) : roundedSignificand m k e ≤ roundedSignificand n k e := by
  rw [roundedSignificand_eq, roundedSignificand_eq]
  exact Nat.mul_le_mul_right _ (roundDiv_le_roundDiv _ h)

/-- What a rounded significand is worth at its exponent field. -/
theorem roundedSignificand_mul_two_pow (m k e : Nat) :
    roundedSignificand m k e * 2 ^ e = roundDiv m (2 ^ (e - k)) * 2 ^ (e - k) * 2 ^ k := by
  have hexp : k - e + e = e - k + k := by omega
  rw [roundedSignificand_eq, Nat.mul_assoc, Nat.mul_assoc, ← pow_add, ← pow_add, hexp]

/-- A pattern from the smallest normal one up and below +infinity: the fields are quotient and remainder. -/
theorem unpack_of_lt_infinity (hlow : 2 ^ f.fracBits ≤ p) (hp : p < f.infinity) :
    f.unpack p = .finite false (2 ^ f.fracBits + p % 2 ^ f.fracBits) (p / 2 ^ f.fracBits) := by
  have hfrac : 0 < 2 ^ f.fracBits := Nat.two_pow_pos _
  have hfield : p / 2 ^ f.fracBits < 2 ^ f.expBits - 1 := (Nat.div_lt_iff_lt_mul hfrac).2 hp
  have hpos : 0 < p / 2 ^ f.fracBits := Nat.div_pos hlow hfrac
  have hexp : f.exponentOf p = p / 2 ^ f.fracBits := Nat.mod_eq_of_lt (by omega)
  have hsign : f.signOf p = false := by
    have hzero : p / 2 ^ (f.expBits + f.fracBits) = 0 := by
      rw [Nat.add_comm, pow_add, ← Nat.div_div_eq_div_mul]
      exact Nat.div_eq_of_lt (by omega)
    simp [FpFormat.signOf, hzero]
  rw [FpFormat.unpack, hexp, hsign, if_neg hfield.ne, if_neg hpos.ne']
  rfl

/-- The zero pattern is the number zero, in a format with room for one. -/
theorem unpack_zero (h : 0 < f.infinity) : f.unpack 0 = .finite false 0 1 := by
  have hne : 0 ≠ 2 ^ f.expBits - 1 := (Nat.pos_of_mul_pos_right h).ne
  simp [FpFormat.unpack, FpFormat.exponentOf, FpFormat.fractionOf, FpFormat.signOf, hne]

/-- A normal pattern put together from an exponent field and a significand that may carry into it is worth the two. -/
theorem exists_unpack_of_fields (he : 1 ≤ e) (hlow : 2 ^ f.fracBits ≤ m) (hhigh : m ≤ 2 ^ (f.fracBits + 1))
    (hp : (e - 1) * 2 ^ f.fracBits + m < f.infinity) :
    ∃ m' e', f.unpack ((e - 1) * 2 ^ f.fracBits + m) = .finite false m' e' ∧ m' * 2 ^ e' = m * 2 ^ e := by
  have hunpack := unpack_of_lt_infinity (hlow.trans (Nat.le_add_left _ _)) hp
  refine ⟨_, _, hunpack, ?_⟩
  have hfrac : 0 < 2 ^ f.fracBits := Nat.two_pow_pos _
  obtain ⟨e, rfl⟩ := Nat.exists_eq_add_of_le' he
  obtain ⟨m, rfl⟩ := Nat.exists_eq_add_of_le hlow
  rw [pow_succ] at hhigh
  have hshape : (e + 1 - 1) * 2 ^ f.fracBits + (2 ^ f.fracBits + m) = m + 2 ^ f.fracBits * (e + 1) := by
    rw [Nat.add_sub_cancel]
    ring
  rw [hshape, Nat.add_mul_mod_self_left, Nat.add_mul_div_left _ _ hfrac]
  obtain hlt | rfl : m < 2 ^ f.fracBits ∨ m = 2 ^ f.fracBits := by omega
  · rw [Nat.mod_eq_of_lt hlt, Nat.div_eq_of_lt hlt, Nat.zero_add]
  · rw [Nat.mod_self, Nat.div_self hfrac]
    ring

/-- Scaling adds to the exponent field, up to +infinity (45_conversion.md R146). -/
theorem scale_eq_min (hp : p ≤ f.infinity) (k : Nat) : f.scale p k = min (p + k * 2 ^ f.fracBits) f.infinity := by
  have hfrac : 0 < 2 ^ f.fracBits := Nat.two_pow_pos _
  have hexpPos : 0 < 2 ^ f.expBits := Nat.two_pow_pos _
  have hfield : p / 2 ^ f.fracBits ≤ 2 ^ f.expBits - 1 := (Nat.div_le_div_right hp).trans_eq (Nat.mul_div_cancel _ hfrac)
  have hexp : f.exponentOf p = p / 2 ^ f.fracBits := Nat.mod_eq_of_lt (by omega)
  have hcap : 2 ^ f.expBits - 1 ≤ f.exponentOf p + k ↔ f.infinity ≤ p + k * 2 ^ f.fracBits := by
    rw [hexp, ← Nat.add_mul_div_right _ _ hfrac, Nat.le_div_iff_mul_le hfrac]
    rfl
  rw [FpFormat.scale]
  split_ifs with hover
  · exact (Nat.min_eq_right (hcap.1 hover)).symm
  · exact (Nat.min_eq_left (Nat.le_of_not_le (mt hcap.2 hover))).symm

/-- The cast of a number that is not zero (R13). -/
theorem rne_eq_min (hbias : 1 ≤ f.bias) (hn : n ≠ 0) :
    f.rne n = min ((f.bias + Nat.log2 n - 1) * 2 ^ f.fracBits +
      roundedSignificand n (f.bias + f.fracBits) (f.bias + Nat.log2 n)) f.infinity := by
  have hexp : max 1 (Nat.log2 n + (f.bias + f.fracBits) - f.fracBits) = f.bias + Nat.log2 n := by omega
  rw [FpFormat.rne, FpFormat.round, if_neg hn, hexp]
  rfl

theorem rne_le_infinity (f : FpFormat) (n : Nat) : f.rne n ≤ f.infinity := by
  rw [FpFormat.rne, FpFormat.round]
  split_ifs
  · exact Nat.zero_le _
  · exact Nat.min_le_right _ _

end Sys2Proof.Machine
end

section
/-!
The integer-to-floating-point converters as numbers (45_conversion.md R146 to R149), in any format: the top limb cast and scaled back
is one pattern put together from the operand's leading bit and a rounded significand, and +infinity caps it.
-/
namespace Sys2Proof.Machine

open Sys2Proof.Claims

variable {f : FpFormat} {m n : Nat} {x y : W128}

theorem log2_lt_of_lt_two_pow {k : Nat} (hk : k ≠ 0) (h : n < 2 ^ k) : Nat.log2 n < k := by
  rw [Nat.log2_eq_log_two]
  exact Nat.log_lt_of_lt_pow' hk h

theorem droppedBits_eq (n : Nat) : droppedBits n = Nat.log2 n - 63 := by
  unfold droppedBits
  split_ifs with hword
  · exact (Nat.sub_eq_zero_of_le (Nat.le_of_lt_succ (log2_lt_of_lt_two_pow (by decide) hword))).symm
  · rfl

/-- The top limb of the normalised operand is the operand without its dropped bits (45_conversion.md R146). -/
theorem toNat_hi_normalised (hx : hi x ≠ 0) : (hi (shl128 x (clz64 (hi x)))).toNat = x.toNat / 2 ^ (64 - clz64 (hi x)) := by
  obtain ⟨hshift, -, hupper⟩ := leadingZeroCountPlacesTheFirstSetBit (hi x) hx
  rw [toNat_hi, Nat.div_lt_iff_lt_mul (by decide)] at hupper
  have hfits : x.toNat * 2 ^ clz64 (hi x) < 2 ^ 128 :=
    calc x.toNat * 2 ^ clz64 (hi x)
      _ < 2 ^ (64 - clz64 (hi x)) * 2 ^ 64 * 2 ^ clz64 (hi x) := Nat.mul_lt_mul_of_pos_right hupper (Nat.two_pow_pos _)
      _ = 2 ^ 128 := by rw [Nat.mul_right_comm, Nat.pow_sub_mul_pow 2 (by omega), ← pow_add]
  have hword : (2 ^ 64 : Nat) = 2 ^ (64 - clz64 (hi x)) * 2 ^ clz64 (hi x) := (Nat.pow_sub_mul_pow 2 (by omega)).symm
  rw [toNat_hi, toNat_shl128, Nat.mod_eq_of_lt hfits, hword, Nat.mul_div_mul_right _ _ (Nat.two_pow_pos _)]

/-- The shift back is by the number of the dropped bits (45_conversion.md R146). -/
theorem sub_clz64_hi_eq_droppedBits (hx : hi x ≠ 0) : 64 - clz64 (hi x) = droppedBits x.toNat := by
  have hpos : (hi x).toNat ≠ 0 := (BitVec.toNat_pos_of_ne_zero hx).ne'
  have hlogHi : Nat.log2 (hi x).toNat < 64 := (Nat.log2_lt hpos).2 (hi x).isLt
  have hlog : Nat.log2 x.toNat = Nat.log2 (hi x).toNat + 64 := by
    rw [toNat_hi] at hpos ⊢
    exact log2_eq_log2_div_two_pow_add hpos
  rw [clz64_of_ne_zero hx, droppedBits_eq]
  omega

/-- Both arms of the converter: cast what is left of the operand, and scale back. -/
theorem u128ToFp_eq_scale (f : FpFormat) (x : W128) :
    u128ToFp f x = min (f.rne (x.toNat / 2 ^ droppedBits x.toNat) + droppedBits x.toNat * 2 ^ f.fracBits) f.infinity := by
  unfold u128ToFp
  split_ifs with hhi
  · have hzero : x.toNat / 2 ^ 64 = 0 := by
      rw [← toNat_hi, hhi]
      rfl
    have hword : x.toNat < 2 ^ 64 := Nat.lt_of_div_eq_zero (by decide) hzero
    have hkept : droppedBits x.toNat = 0 := if_pos hword
    rw [hkept, toNat_lo, Nat.mod_eq_of_lt hword, pow_zero, Nat.div_one, Nat.zero_mul, Nat.add_zero,
      Nat.min_eq_left (rne_le_infinity f _)]
  · dsimp only
    rw [toNat_hi_normalised hhi, sub_clz64_hi_eq_droppedBits hhi, scale_eq_min (rne_le_infinity f _)]

theorem u128ToFp_zero (f : FpFormat) : u128ToFp f 0 = 0 := rfl

theorem u128ToFp_le_infinity (f : FpFormat) (x : W128) : u128ToFp f x ≤ f.infinity := by
  rw [u128ToFp_eq_scale]
  exact Nat.min_le_right _ _

@[simp] theorem convertedValue_zero (prec : Nat) : convertedValue prec 0 = 0 := by
  simp [convertedValue, roundDiv]

/-- Something of the operand is left to cast. -/
theorem div_droppedBits_ne_zero (hn : n ≠ 0) : n / 2 ^ droppedBits n ≠ 0 := by
  have hlow : 2 ^ droppedBits n ≤ n := by
    rw [droppedBits_eq]
    exact (Nat.pow_le_pow_right (by decide) (Nat.sub_le _ _)).trans (Nat.log2_self_le hn)
  exact (Nat.div_pos hlow (Nat.two_pow_pos _)).ne'

/-- Dropping bits shortens a number by as many. -/
theorem log2_div_droppedBits_add (hn : n ≠ 0) : Nat.log2 (n / 2 ^ droppedBits n) + droppedBits n = Nat.log2 n :=
  (log2_eq_log2_div_two_pow_add (div_droppedBits_ne_zero hn)).symm

/-- The significand to which the converters round `n` without its dropped bits, before a carry out of it (R146). -/
def convertedSignificand (f : FpFormat) (n : Nat) : Nat :=
  roundedSignificand (n / 2 ^ droppedBits n) (f.bias + f.fracBits) (f.bias + Nat.log2 (n / 2 ^ droppedBits n))

theorem convertedSignificand_bounds (f : FpFormat) (hn : n ≠ 0) :
    2 ^ f.fracBits ≤ convertedSignificand f n ∧ convertedSignificand f n ≤ 2 ^ (f.fracBits + 1) :=
  roundedSignificand_bounds (div_droppedBits_ne_zero hn) (by omega)

/-- At the exponent field of the operand's leading bit the significand is worth the converted value. -/
theorem convertedSignificand_mul_two_pow (f : FpFormat) (hn : n ≠ 0) :
    convertedSignificand f n * 2 ^ (f.bias + Nat.log2 n) = convertedValue (f.fracBits + 1) n * f.unit := by
  have hsig := roundedSignificand_mul_two_pow (n / 2 ^ droppedBits n) (f.bias + f.fracBits)
    (f.bias + Nat.log2 (n / 2 ^ droppedBits n))
  rw [Nat.add_sub_add_left] at hsig
  rw [← log2_div_droppedBits_add hn, ← Nat.add_assoc, pow_add, ← Nat.mul_assoc, convertedSignificand, hsig, convertedValue,
    FpFormat.unit, Nat.add_sub_add_right, pow_add 2 _ (droppedBits n)]
  ring

/-- The pattern of a converted number if the exponent field had no end. -/
def unboundedPattern (f : FpFormat) (n : Nat) : Nat :=
  (f.bias + Nat.log2 n - 1) * 2 ^ f.fracBits + convertedSignificand f n

/-- The pattern lies between those of the powers of two next to the number. -/
theorem unboundedPattern_bounds (hbias : 1 ≤ f.bias) (hn : n ≠ 0) :
    (f.bias + Nat.log2 n) * 2 ^ f.fracBits ≤ unboundedPattern f n ∧
      unboundedPattern f n ≤ (f.bias + Nat.log2 n + 1) * 2 ^ f.fracBits := by
  obtain ⟨hlow, hhigh⟩ := convertedSignificand_bounds f hn
  obtain ⟨e, he⟩ := Nat.exists_eq_add_of_le' (hbias.trans (Nat.le_add_right _ (Nat.log2 n)))
  rw [pow_succ] at hhigh
  rw [unboundedPattern, he, Nat.add_sub_cancel]
  constructor <;> linarith

/-- The converter's pattern: the exponent field of the leading bit beside the rounded significand, up to +infinity. -/
theorem u128ToFp_eq_min (hbias : 1 ≤ f.bias) (hx : x ≠ 0) :
    u128ToFp f x = min (unboundedPattern f x.toNat) f.infinity := by
  have hx' : x.toNat ≠ 0 := (BitVec.toNat_pos_of_ne_zero hx).ne'
  have hlog := log2_div_droppedBits_add hx'
  have hfield : f.bias + Nat.log2 x.toNat - 1 =
      f.bias + Nat.log2 (x.toNat / 2 ^ droppedBits x.toNat) - 1 + droppedBits x.toNat := by omega
  rw [u128ToFp_eq_scale, rne_eq_min hbias (div_droppedBits_ne_zero hx'), unboundedPattern, hfield, Nat.add_mul,
    convertedSignificand]
  omega

/-- A pattern below +infinity stands for the converted value. -/
theorem exists_unpack_u128ToFp (hbias : 1 ≤ f.bias) (hfin : u128ToFp f x < f.infinity) :
    ∃ m e, f.unpack (u128ToFp f x) = .finite false m e ∧ m * 2 ^ e = convertedValue (f.fracBits + 1) x.toNat * f.unit := by
  by_cases hx : x = 0
  · subst hx
    refine ⟨0, 1, unpack_zero (Nat.zero_lt_of_lt hfin), ?_⟩
    have hzero : convertedValue (f.fracBits + 1) (0 : W128).toNat = 0 := convertedValue_zero _
    rw [hzero, Nat.zero_mul, Nat.zero_mul]
  · have hx' : x.toNat ≠ 0 := (BitVec.toNat_pos_of_ne_zero hx).ne'
    obtain ⟨hlow, hhigh⟩ := convertedSignificand_bounds f hx'
    rw [u128ToFp_eq_min hbias hx] at hfin ⊢
    have hfin' : unboundedPattern f x.toNat < f.infinity := by omega
    rw [Nat.min_eq_left hfin'.le, ← convertedSignificand_mul_two_pow f hx']
    exact exists_unpack_of_fields (hbias.trans (Nat.le_add_right _ _)) hlow hhigh hfin'

/-- The pattern is monotone: numbers of one length share their dropped bits and exponent field, and between lengths there is a power
of two. -/
theorem unboundedPattern_le_unboundedPattern (hbias : 1 ≤ f.bias) (hm : m ≠ 0) (h : m ≤ n) :
    unboundedPattern f m ≤ unboundedPattern f n := by
  have hn : n ≠ 0 := by omega
  have hlog : Nat.log2 m ≤ Nat.log2 n := by
    rw [Nat.le_log2 hn]
    exact (Nat.log2_self_le hm).trans h
  obtain hlt | heq := hlog.lt_or_eq
  · calc unboundedPattern f m
      _ ≤ (f.bias + Nat.log2 m + 1) * 2 ^ f.fracBits := (unboundedPattern_bounds hbias hm).2
      _ ≤ (f.bias + Nat.log2 n) * 2 ^ f.fracBits := Nat.mul_le_mul_right _ (by omega)
      _ ≤ unboundedPattern f n := (unboundedPattern_bounds hbias hn).1
  · have hdropped : droppedBits m = droppedBits n := by rw [droppedBits_eq, droppedBits_eq, heq]
    have hlogM := log2_div_droppedBits_add hm
    have hlogN := log2_div_droppedBits_add hn
    have hlogTop : Nat.log2 (m / 2 ^ droppedBits n) = Nat.log2 (n / 2 ^ droppedBits n) := by
      rw [hdropped] at hlogM
      omega
    rw [unboundedPattern, unboundedPattern, heq, convertedSignificand, convertedSignificand, hdropped, hlogTop]
    exact Nat.add_le_add_left (roundedSignificand_le_roundedSignificand (Nat.div_le_div_right h)) _

theorem u128ToFp_le_u128ToFp (hbias : 1 ≤ f.bias) (h : x ≤ y) : u128ToFp f x ≤ u128ToFp f y := by
  by_cases hx : x = 0
  · rw [hx, u128ToFp_zero]
    exact Nat.zero_le _
  · have hx' : x.toNat ≠ 0 := (BitVec.toNat_pos_of_ne_zero hx).ne'
    have hnat : x.toNat ≤ y.toNat := h
    have hy : y ≠ 0 := by
      rintro rfl
      exact hx' (Nat.le_zero.1 hnat)
    rw [u128ToFp_eq_min hbias hx, u128ToFp_eq_min hbias hy]
    exact min_le_min_right _ (unboundedPattern_le_unboundedPattern hbias hx' hnat)

/-- A number of few enough bits for the exponent field does not overflow. -/
theorem u128ToFp_lt_infinity (hbias : 1 ≤ f.bias) (hexp : f.bias + Nat.log2 x.toNat + 1 < 2 ^ f.expBits - 1) :
    u128ToFp f x < f.infinity := by
  have hroom : (f.bias + Nat.log2 x.toNat + 1) * 2 ^ f.fracBits < f.infinity :=
    Nat.mul_lt_mul_of_pos_right hexp (Nat.two_pow_pos _)
  by_cases hx : x = 0
  · rw [hx, u128ToFp_zero]
    exact Nat.zero_lt_of_lt hroom
  · rw [u128ToFp_eq_min hbias hx]
    exact (Nat.min_le_left _ _).trans_lt
      ((unboundedPattern_bounds hbias (BitVec.toNat_pos_of_ne_zero hx).ne').2.trans_lt hroom)

/-- Every operand is finite in binary64 (R147). -/
theorem u128ToFp_binary64_lt_infinity (x : W128) : u128ToFp binary64 x < binary64.infinity := by
  have hlog := log2_lt_of_lt_two_pow (by decide) x.isLt
  apply u128ToFp_lt_infinity (by decide)
  simp only [binary64]
  omega

/-- With the leading bit at the top, the high limb is what binary32 rounds, to its first 24 bits (R148). -/
theorem u128ToFp_binary32_of_top (htop : 2 ^ 127 ≤ x.toNat) :
    u128ToFp binary32 x = min (253 * 2 ^ 23 + roundDiv (hi x).toNat (2 ^ 40)) binary32.infinity := by
  have hx : x ≠ 0 := by
    rintro rfl
    exact absurd htop (by decide)
  have hlog : Nat.log2 x.toNat = 127 := (Nat.log2_eq_iff (by omega)).2 ⟨htop, x.isLt⟩
  have hdropped : droppedBits x.toNat = 64 := by rw [droppedBits_eq, hlog]
  have hlogHi : Nat.log2 (hi x).toNat + 64 = 127 := by
    rw [toNat_hi, ← hdropped, log2_div_droppedBits_add (by omega), hlog]
  have hsig : convertedSignificand binary32 x.toNat = roundDiv (hi x).toNat (2 ^ 40) := by
    rw [convertedSignificand, hdropped, ← toNat_hi, Nat.eq_sub_of_add_eq hlogHi]
    rfl
  rw [u128ToFp_eq_min (by decide) hx, unboundedPattern, hlog, hsig]
  rfl

/-- The binary32 patterns reach +infinity where the high limb rounds up to 2^64 (R148). -/
theorem infinity_le_u128ToFp_binary32_iff :
    binary32.infinity ≤ u128ToFp binary32 x ↔ 0xFFFFFF8000000000 ≤ (hi x).toNat := by
  have hlimb := (hi x).isLt
  by_cases htop : 2 ^ 127 ≤ x.toNat
  · rw [u128ToFp_binary32_of_top htop]
    simp only [binary32, FpFormat.infinity]
    obtain ⟨hhalf, hround, heven⟩ | ⟨hhalf, hround, heven⟩ := roundDiv_cases (hi x).toNat (2 ^ 40) <;> omega
  · have hlog := log2_lt_of_lt_two_pow (by decide) (Nat.not_le.1 htop)
    have hfin : u128ToFp binary32 x < binary32.infinity := by
      apply u128ToFp_lt_infinity (by decide)
      simp only [binary32]
      omega
    have hhi := toNat_hi x
    omega

end Sys2Proof.Machine
end

section
/-!
The commands U128_TO_F64 and U128_TO_F32 (45_conversion.md R147, R148): the numbers their patterns stand for, and which operands
convert exactly.
-/
namespace Sys2Proof.Machine

open Sys2Proof.Claims

variable {n prec : Nat} {x : W128}

theorem toNat_u128ToF64 (x : W128) : (u128ToF64 x).toNat = u128ToFp binary64 x :=
  Nat.mod_eq_of_lt ((u128ToFp_le_infinity binary64 x).trans_lt (by decide))

theorem toNat_u128ToF32 (x : W128) : (u128ToF32 x).toNat = u128ToFp binary32 x :=
  Nat.mod_eq_of_lt ((u128ToFp_le_infinity binary32 x).trans_lt (by decide))

theorem exec_u128ToF64 (a : W128) (s : State) :
    exec (.u128ToF64 a) s = .next (afterLegal s (pair 0 (u128ToF64 a)) 0) := by
  rw [← complete_respondWord]
  rfl

theorem exec_u128ToF32 (a : W128) (s : State) :
    exec (.u128ToF32 a) s = .next (afterLegal s ((u128ToF32 a).setWidth 128) 0) := by
  rw [← setWidth_128_setWidth_64 (u128ToF32 a) (by decide), ← pair_zero_eq_setWidth, ← complete_respondWord]
  rfl

/-- The number of a binary64 conversion, for every operand (R147). -/
theorem exists_unpack_u128ToF64 (x : W128) :
    ∃ m e, binary64.unpack (u128ToF64 x).toNat = .finite false m e ∧ m * 2 ^ e = convertedValue 53 x.toNat * binary64.unit := by
  rw [toNat_u128ToF64]
  exact exists_unpack_u128ToFp (by decide) (u128ToFp_binary64_lt_infinity x)

/-- The number of a binary32 conversion that does not overflow (R148). -/
theorem exists_unpack_u128ToF32 (hfin : (hi x).toNat < 0xFFFFFF8000000000) :
    ∃ m e, binary32.unpack (u128ToF32 x).toNat = .finite false m e ∧ m * 2 ^ e = convertedValue 24 x.toNat * binary32.unit := by
  rw [toNat_u128ToF32]
  exact exists_unpack_u128ToFp (by decide) (Nat.not_le.1 (mt infinity_le_u128ToFp_binary32_iff.1 (Nat.not_le.2 hfin)))

/-- A binary32 conversion that overflows is +infinity (R148). -/
theorem u128ToF32_of_overflow (hover : 0xFFFFFF8000000000 ≤ (hi x).toNat) : u128ToF32 x = 0x7F800000#32 := by
  apply BitVec.eq_of_toNat_eq
  rw [toNat_u128ToF32]
  exact (u128ToFp_le_infinity binary32 x).antisymm (infinity_le_u128ToFp_binary32_iff.2 hover)

/-- Settles O45: no operand overflows binary64, and a pattern below +infinity stands for the converted value. -/
theorem u128ToF64RoundsTheTopLimb : Obligations.U128ToF64RoundsTheTopLimb := by
  unfold Obligations.U128ToF64RoundsTheTopLimb
  refine ⟨fun c hop => ?_, fun a s => ?_⟩
  · simp only [decode, hop, operandA]
  · obtain ⟨m, e, hvalue⟩ := exists_unpack_u128ToF64 a
    exact ⟨u128ToF64 a, m, e, exec_u128ToF64 a s, hvalue⟩

/-- Settles O46: the top limb rounds up to 2^64 exactly from the threshold on, and then only does the pattern reach +infinity. -/
theorem u128ToF32RoundsTheTopLimbOrOverflows : Obligations.U128ToF32RoundsTheTopLimbOrOverflows := by
  unfold Obligations.U128ToF32RoundsTheTopLimbOrOverflows
  refine ⟨fun c hop => ?_, fun a s hover => ?_, fun a s hfin => ?_⟩
  · simp only [decode, hop, operandA]
  · rw [exec_u128ToF32, u128ToF32_of_overflow hover]
    rfl
  · obtain ⟨m, e, hvalue⟩ := exists_unpack_u128ToF32 hfin
    exact ⟨u128ToF32 a, m, e, exec_u128ToF32 a s, hvalue⟩

/-- Settles O47: the converter is monotone in every format, and its pattern fits the word. -/
theorem integerToFloatIsMonotone : Obligations.IntegerToFloatIsMonotone := by
  unfold Obligations.IntegerToFloatIsMonotone
  intro x y h
  rw [BitVec.le_def, BitVec.le_def, toNat_u128ToF64, toNat_u128ToF64, toNat_u128ToF32, toNat_u128ToF32]
  exact ⟨u128ToFp_le_u128ToFp (by decide) h, u128ToFp_le_u128ToFp (by decide) h⟩

/-- A number all of whose bits below the significand's are zero converts exactly; the bits dropped are among those below. -/
theorem convertedValue_of_dvd (hprec : prec ≤ 64) (h : 2 ^ (Nat.log2 n + 1 - prec) ∣ n) : convertedValue prec n = n := by
  by_cases hn : n = 0
  · rw [hn, convertedValue_zero]
  · have hlog := log2_div_droppedBits_add hn
    have hdropped := droppedBits_eq n
    rw [convertedValue]
    generalize droppedBits n = k at hlog hdropped ⊢
    generalize hj : Nat.log2 (n / 2 ^ k) + 1 - prec = j
    have hsum : Nat.log2 n + 1 - prec = k + j := by omega
    rw [hsum, pow_add] at h
    have hrounded : 2 ^ j ∣ n / 2 ^ k := Nat.dvd_div_of_mul_dvd h
    rw [roundDiv_of_dvd (Nat.two_pow_pos j) hrounded, pow_add, ← Nat.mul_assoc, Nat.div_mul_cancel hrounded,
      Nat.div_mul_cancel (dvd_of_mul_right_dvd h)]

theorem convertedValue_of_lt (hprec : prec ≤ 64) (hpos : prec ≠ 0) (hn : n < 2 ^ prec) : convertedValue prec n = n := by
  have hnone : Nat.log2 n + 1 - prec = 0 := Nat.sub_eq_zero_of_le (log2_lt_of_lt_two_pow hpos hn)
  apply convertedValue_of_dvd hprec
  rw [hnone]
  exact Nat.one_dvd n

theorem convertedValue_two_pow {k : Nat} (hprec : prec ≤ 64) (hpos : prec ≠ 0) : convertedValue prec (2 ^ k) = 2 ^ k := by
  apply convertedValue_of_dvd hprec
  rw [Nat.log2_two_pow]
  exact pow_dvd_pow 2 (by omega)

/-- Settles O48: the significand has room for every bit of the operand, and a number below 2^24 does not overflow binary32. -/
theorem smallIntegersConvertExactly : Obligations.SmallIntegersConvertExactly := by
  unfold Obligations.SmallIntegersConvertExactly
  refine ⟨fun x hx => ?_, fun x hx => ?_⟩
  · obtain ⟨m, e, hunpack, hvalue⟩ := exists_unpack_u128ToF64 x
    rw [convertedValue_of_lt (by decide) (by decide) hx] at hvalue
    exact ⟨m, e, hunpack, hvalue⟩
  · have hhi := toNat_hi x
    obtain ⟨m, e, hunpack, hvalue⟩ := exists_unpack_u128ToF32 (x := x) (by omega)
    rw [convertedValue_of_lt (by decide) (by decide) hx] at hvalue
    exact ⟨m, e, hunpack, hvalue⟩

end Sys2Proof.Machine
end

section
/-!
The floating-point-to-integer converters as numbers (45_conversion.md R150 to R154), in any format; and the way to binary64 and back
(R156).
-/
namespace Sys2Proof.Machine

open Sys2Proof.Claims

variable {f : FpFormat} {m n e p : Nat}

/-- The power of two that a one shifted left by `k` is, gone from 128 places on (45_conversion.md R150, 40_limb_primitives.md R75). -/
theorem toNat_shl128_one (k : Nat) : (shl128 (pair 0 1) k).toNat = if k < 128 then 2 ^ k else 0 := by
  have hone : (pair 0 1).toNat = 1 := rfl
  rw [toNat_shl128, hone, Nat.one_mul]
  split_ifs with hk
  · exact Nat.mod_eq_of_lt (Nat.pow_lt_pow_right (by decide) hk)
  · exact Nat.mod_eq_zero_of_dvd (pow_dvd_pow 2 (Nat.not_lt.1 hk))

/-- The shifted word of R150 is 1: the value divided by the largest power of two not above it. -/
theorem div_mul_two_pow_log2 {v unit : Nat} (hv : v / unit ≠ 0) : v / (unit * 2 ^ Nat.log2 (v / unit)) = 1 := by
  have hlow : 2 ^ Nat.log2 (v / unit) ≤ v / unit := Nat.log2_self_le hv
  have hhigh : v / unit < 2 ^ (Nat.log2 (v / unit) + 1) := Nat.lt_log2_self
  rw [← Nat.div_div_eq_div_mul]
  exact Nat.div_eq_of_lt_le (by omega) (by omega)

/-- The formula of R150, of every pattern: its rejections are those of R153, and a value from 2^128 to 10^39 is shifted out of the
pair. -/
theorem toNat_fpToU128 (f : FpFormat) (p : Nat) : (fpToU128 f p).toNat = convertedInteger f p := by
  unfold fpToU128 convertedInteger
  cases f.unpack p with
  | nan => rfl
  | infinity negative => rfl
  | finite negative m e =>
    simp only [Config.F2I_MIN, Nat.one_mul, ← or_assoc]
    generalize m * 2 ^ e = v
    by_cases hreject : negative = true ∨ v < f.unit
    · rw [if_pos hreject, if_pos (.inl hreject)]
      rfl
    · have hunit : 0 < f.unit := Nat.two_pow_pos _
      have hquot : v / f.unit ≠ 0 := (Nat.div_pos (Nat.not_lt.1 (mt .inr hreject)) hunit).ne'
      have hfits : Nat.log2 (v / f.unit) < 128 ↔ ¬ 2 ^ 128 * f.unit ≤ v := by
        rw [Nat.log2_lt hquot, ← Nat.not_le, Nat.le_div_iff_mul_le hunit]
      have hthreshold : Config.F2I_MAX * f.unit < v → 2 ^ 128 * f.unit ≤ v := fun hmax =>
        (Nat.mul_le_mul_right f.unit (by decide)).trans hmax.le
      rw [if_neg hreject, div_mul_two_pow_log2 hquot]
      by_cases hbig : 2 ^ 128 * f.unit ≤ v
      · have hout : (negative = true ∨ v < f.unit) ∨ 2 ^ 128 * f.unit ≤ v := .inr hbig
        rw [if_pos hout]
        split_ifs
        · rfl
        · exact (toNat_shl128_one _).trans (if_neg (mt hfits.1 (not_not.2 hbig)))
      · rw [if_neg (mt hthreshold hbig), if_neg (not_or.2 ⟨hreject, hbig⟩)]
        exact (toNat_shl128_one _).trans (if_pos (hfits.2 hbig))

theorem exec_f64ToU128 (p : W64) (s : State) : exec (.f64ToU128 p) s = .next (afterLegal s (f64ToU128 p) 0) := by
  rw [← complete_respondPair]
  rfl

theorem exec_f32ToU128 (p : W32) (s : State) : exec (.f32ToU128 p) s = .next (afterLegal s (f32ToU128 p) 0) := by
  rw [← complete_respondPair]
  rfl

/-- Settles O50, by the meaning of the converter in every format. -/
theorem f64ToU128GivesAPowerOfTwo : Obligations.F64ToU128GivesAPowerOfTwo := by
  unfold Obligations.F64ToU128GivesAPowerOfTwo
  refine ⟨fun c hop => ?_, fun p s => ⟨f64ToU128 p, exec_f64ToU128 p s, toNat_fpToU128 binary64 p.toNat⟩⟩
  simp only [decode, hop]

/-- Settles O51, by the meaning of the converter in every format. -/
theorem f32ToU128GivesAPowerOfTwo : Obligations.F32ToU128GivesAPowerOfTwo := by
  unfold Obligations.F32ToU128GivesAPowerOfTwo
  refine ⟨fun c hop => ?_, fun p s => ⟨f32ToU128 p, exec_f32ToU128 p s, toNat_fpToU128 binary32 p.toNat⟩⟩
  simp only [decode, hop, operandF32, BitVec.setWidth_eq_extractLsb' (show 32 ≤ 64 by decide)]

/-- What a pattern of a natural number converts to. -/
theorem convertedInteger_of_unpack (hunpack : f.unpack p = .finite false m e) (hvalue : m * 2 ^ e = n * f.unit) :
    convertedInteger f p = if n = 0 ∨ 2 ^ 128 ≤ n then 0 else 2 ^ Nat.log2 n := by
  have hunit : 0 < f.unit := Nat.two_pow_pos _
  have hbelow : n * f.unit < f.unit ↔ n = 0 := by
    rw [mul_lt_iff_lt_one_left hunit, Nat.lt_one_iff]
  simp only [convertedInteger, hunpack, hvalue, Bool.false_eq_true, false_or, hbelow, Nat.mul_le_mul_right_iff hunit,
    Nat.mul_div_cancel _ hunit]

/-- The way to binary64 and back: the largest power of two not above the rounded operand (R156). -/
theorem toNat_f64ToU128_u128ToF64 (x : W128) :
    (f64ToU128 (u128ToF64 x)).toNat =
      if convertedValue 53 x.toNat = 0 ∨ 2 ^ 128 ≤ convertedValue 53 x.toNat then 0
      else 2 ^ Nat.log2 (convertedValue 53 x.toNat) := by
  obtain ⟨m, e, hunpack, hvalue⟩ := exists_unpack_u128ToF64 x
  rw [f64ToU128, toNat_fpToU128, convertedInteger_of_unpack hunpack hvalue]

/-- Settles O52: the way back gives nothing but zero and powers of two, and these convert exactly. -/
theorem roundTripKeepsExactlyPowersOfTwo : Obligations.RoundTripKeepsExactlyPowersOfTwo := by
  unfold Obligations.RoundTripKeepsExactlyPowersOfTwo
  intro x
  have hback := toNat_f64ToU128_u128ToF64 x
  constructor
  · intro hkept
    rw [hkept] at hback
    split_ifs at hback with hzero
    · exact .inl (BitVec.eq_of_toNat_eq hback)
    · exact .inr ⟨_, (Nat.pow_lt_pow_iff_right (by decide)).1 (hback ▸ x.isLt), hback⟩
  · rintro (rfl | ⟨k, hk, hx⟩)
    · exact BitVec.eq_of_toNat_eq (hback.trans (if_pos (.inl (convertedValue_zero 53))))
    · have hpow : 2 ^ k < 2 ^ 128 := Nat.pow_lt_pow_right (by decide) hk
      rw [hx, convertedValue_two_pow (by decide) (by decide), Nat.log2_two_pow,
        if_neg (not_or.2 ⟨(Nat.two_pow_pos k).ne', Nat.not_le.2 hpow⟩), ← hx] at hback
      exact BitVec.eq_of_toNat_eq hback

end Sys2Proof.Machine
end

section
/-!
Nothing stops a lane (60_exceptions.md R170), a completion sets `ILL` for a reserved op code alone (R172), and lanes on a common
clock take each their own step (R178).
-/
namespace Sys2Proof.Machine

variable {s : State} {b b' : Block}

/-- An edge with `rst = 1`, busy lane or ready (70_reset_and_hazards.md R190, R192). -/
theorem step_of_reset (hrst : s.portsNow.rst = true) : step s = .next (resetLane (nextEdge s)) := if_pos hrst

/-- Settles O10: reset, idle, acceptance and waiting name their next state, and a command in flight completes whatever it is. -/
theorem everyStepHasANextState : Obligations.EveryStepHasANextState := by
  unfold Obligations.EveryStepHasANextState
  intro s
  cases hrst : s.portsNow.rst with
  | true => exact ⟨_, step_of_reset hrst⟩
  | false =>
    cases hf : s.inFlight with
    | none =>
      cases hv : s.portsNow.cmdValid with
      | true => exact ⟨_, step_of_accept hrst hf hv⟩
      | false => exact ⟨_, step_of_idle hrst hf hv⟩
    | some f =>
      obtain hwait | hdue := Nat.lt_or_ge 1 f.remaining
      · exact ⟨_, step_of_wait hrst hf hwait⟩
      · obtain ⟨t, hstep, -⟩ := exists_step_of_due hrst hf hdue
        exact ⟨t, hstep⟩

/-- Settles O20: a reserved op code completes with `ILL` set; any other decodes, and `exec` clears `ILL`. -/
theorem illegalFlagIsSetExactlyOnReservedOpCodes : Obligations.IllegalFlagIsSetExactlyOnReservedOpCodes := by
  unfold Obligations.IllegalFlagIsSetExactlyOnReservedOpCodes
  intro c s
  cases hop : reservedOp c.op with
  | true => exact ⟨completeReserved s, runCommand_of_reserved hop s, by simp [illReserved]⟩
  | false =>
    obtain ⟨i, hdecode⟩ := exists_decode_eq_ok hop
    obtain ⟨r, hill, hexec⟩ := exec_completes i
    refine ⟨complete r s, ?_, by simp [hill, illLegal]⟩
    rw [runCommand_of_decode_ok hdecode, hexec]

/-- A common edge of a lane and the rest of the block is a step of the lane and a common edge of the rest. -/
theorem stepAll_cons_eq_next_iff :
    stepAll (s :: b) = .next b' ↔ ∃ t u, step s = .next t ∧ stepAll b = .next u ∧ b' = t :: u := by
  cases hs : step s with
  | next t => cases hb : stepAll b <;> simp [stepAll, hs, hb, eq_comm]
  | fault r => cases r
  | refused r => simp [stepAll, hs]

/-- All that a common edge can do: every lane takes its own step, and the lanes keep their places. -/
theorem stepAll_eq_next_iff : stepAll b = .next b' ↔ List.Forall₂ (fun s t => step s = .next t) b b' := by
  induction b generalizing b' with
  | nil => simp [stepAll, eq_comm]
  | cons s b ih => simp only [stepAll_cons_eq_next_iff, List.forall₂_cons_left_iff, ih]

/-- Settles O60: a common edge is each lane's own step, and with `rst` shared each of these is an edge of reset. -/
theorem lanesLeaveResetTogether : Obligations.LanesLeaveResetTogether := by
  unfold Obligations.LanesLeaveResetTogether
  constructor
  · intro b hrst
    rw [stepAll_eq_next_iff, List.forall₂_map_right_iff, List.forall₂_same]
    exact fun s hs => step_of_reset (hrst s hs)
  · intro b b' h
    have hlanes := stepAll_eq_next_iff.1 h
    refine ⟨hlanes.length_eq.symm, fun k s t hs ht => ?_⟩
    obtain ⟨hk, rfl⟩ := List.getElem?_eq_some_iff.1 hs
    obtain ⟨hk', rfl⟩ := List.getElem?_eq_some_iff.1 ht
    exact hlanes.get hk hk'

end Sys2Proof.Machine
end

section
/-!
The remainder of DIV128TO64 (70_reset_and_hazards.md R196): all ones only beside the sentinel quotient of an overflow, and never the
all-ones quotient of a division that fits.
-/
namespace Sys2Proof.Machine

open Sys2Proof.Claims

variable {a : W128} {d : W64}

/-- The secondary result is the sentinel exactly on overflow: any other remainder is below the divisor (43_division.md R110, R112). -/
theorem div128to64_remainder_eq_sentinel_iff : (div128to64 a d).2 = Config.SENTINEL64 ↔ d ≤ hi a := by
  constructor
  · intro hrem
    by_contra hlt
    obtain ⟨-, hbound⟩ := toNat_div128to64_euclidean (BitVec.not_le.1 hlt)
    have hones : (div128to64 a d).2.toNat = 2 ^ 64 - 1 := by
      rw [hrem]
      rfl
    have := d.isLt
    omega
  · intro hle
    rw [div128to64_of_le hle]

/-- The largest dividend whose quotient fits is `d * 2^64 - 1`: its quotient is all ones too, with remainder `d - 1`. -/
theorem div128to64_largest_dividend (hd : d ≠ 0) :
    div128to64 (pair (d - 1) Config.SENTINEL64) d = (Config.SENTINEL64, d - 1) := by
  have hpos : 0 < d.toNat := BitVec.toNat_pos_of_ne_zero hd
  have hpred : (d - 1).toNat = d.toNat - 1 := BitVec.toNat_sub_of_le (BitVec.le_def.2 hpos)
  have hones : Config.SENTINEL64.toNat = 2 ^ 64 - 1 := rfl
  have hfits : hi (pair (d - 1) Config.SENTINEL64) < d := by
    rw [hi_pair, BitVec.lt_def]
    omega
  have hdividend : (d - 1).toNat + d.toNat * Config.SENTINEL64.toNat = (pair (d - 1) Config.SENTINEL64).toNat := by
    rw [toNat_pair, hones]
    omega
  obtain ⟨hquot, hrem⟩ := toNat_div128to64_of_lt hfits
  obtain ⟨hquot', hrem'⟩ := (Nat.div_mod_unique hpos).2 ⟨hdividend, show (d - 1).toNat < d.toNat by omega⟩
  exact Prod.ext (BitVec.eq_of_toNat_eq (hquot.trans hquot')) (BitVec.eq_of_toNat_eq (hrem.trans hrem'))

/-- Settles O32: `S` is the remainder, and the largest dividend whose quotient fits has the sentinel's quotient. -/
theorem remainderTellsTheSentinel : Obligations.RemainderTellsTheSentinel := by
  unfold Obligations.RemainderTellsTheSentinel
  refine ⟨fun a d s => ⟨_, exec_div128to64 a d s, div128to64_remainder_eq_sentinel_iff⟩,
    fun d s hd => ⟨_, exec_div128to64 _ d s, ?quotient, ?remainder⟩⟩
  case quotient => exact (congrArg (pair 0 ·.1) (div128to64_largest_dividend hd)).trans pair_zero_sentinel64
  case remainder => exact congrArg Prod.snd (div128to64_largest_dividend hd)

end Sys2Proof.Machine
end

section
/-!
Reset (70_reset_and_hazards.md R190, R192): what its edge leaves, and that a lane to which nothing is presented stays so.
-/
namespace Sys2Proof.Machine

open Sys2Proof.Claims

variable {s : State}

/-- `BUSY` is 0 exactly when no command is in flight (10_state.md R24). -/
theorem busy_eq_zero_iff : s.BUSY = 0#1 ↔ s.inFlight = none := by
  cases h : s.inFlight <;> simp [State.BUSY, h]

/-- Settles O2: an edge without reset that neither accepts nor completes is idle or waits, and these hold the registers and `BUSY`. -/
theorem resetEdgeClearsTheLane : Obligations.ResetEdgeClearsTheLane := by
  unfold Obligations.ResetEdgeClearsTheLane
  refine ⟨fun s hrst => ⟨false, step_of_reset hrst⟩, fun s t h hne => ?response, fun s t h hne => ?busy⟩
  case response =>
    obtain ⟨hrst, -⟩ | ⟨-, -, -, rfl⟩ | ⟨-, -, -, rfl⟩ | ⟨f, -, -, -, rfl⟩ | ⟨f, -, hf, hn, -⟩ := step_cases h
    · exact .inl hrst
    · exact absurd (nextEdge_response s) hne
    · exact absurd (nextEdge_response s) hne
    · exact absurd (nextEdge_response s) hne
    · exact .inr ⟨f, hf, hn⟩
  case busy =>
    obtain ⟨hrst, -⟩ | ⟨-, -, -, rfl⟩ | ⟨-, hf, hv, -⟩ | ⟨f, -, hf, -, rfl⟩ | ⟨f, -, hf, hn, -⟩ := step_cases h
    · exact .inl hrst
    · exact absurd rfl hne
    · exact .inr (.inl ⟨hf, hv⟩)
    · exact absurd (by simp [State.BUSY, hf]) hne
    · exact .inr (.inr ⟨f, hf, hn⟩)

/-- What the ports show after reset (10_state.md R34): the reset values, a ready lane and no pulse. -/
def State.ShowsReset (s : State) : Prop := s.response = ⟨0#128, 0#64, 0#1⟩ ∧ s.inFlight = none ∧ s.rspValid = false

/-- A further edge at which no command is presented, with or without `rst`, shows the same. -/
theorem exists_step_of_showsReset (hs : s.ShowsReset) (hv : s.portsNow.cmdValid = false) :
    ∃ t, step s = .next t ∧ t.ShowsReset ∧ t.host = s.host.tail := by
  obtain ⟨hresp, hf, -⟩ := hs
  cases hrst : s.portsNow.rst with
  | true => exact ⟨_, step_of_reset hrst, ⟨rfl, rfl, rfl⟩, rfl⟩
  | false => exact ⟨_, step_of_idle hrst hf hv, ⟨hresp, hf, rfl⟩, rfl⟩

/-- What holds of idle ports and of the next `k + 1` edges of a schedule holds of the coming edge and of the `k` after it. -/
theorem portsNow_and_later {P : Ports → Prop} {k : Nat} (hidle : P Ports.idle) (h : ∀ p ∈ s.host.take (k + 1), P p) :
    P s.portsNow ∧ ∀ p ∈ s.host.tail.take k, P p := by
  cases hs : s.host with
  | nil => simpa [State.portsNow, hs] using hidle
  | cons p ps => simpa [State.portsNow, hs] using h

/-- A run of edges at which no command is presented keeps a lane as it was after reset (R192). -/
theorem exists_run_of_showsReset {k : Nat} (hs : s.ShowsReset) (hv : ∀ p ∈ s.host.take k, p.cmdValid = false) :
    ∃ u, Sys2Proof.core.run k s = .next u ∧ u.ShowsReset := by
  induction k generalizing s with
  | zero => exact ⟨s, run_zero s, hs⟩
  | succ k ih =>
    obtain ⟨hnow, hlater⟩ := portsNow_and_later (P := (·.cmdValid = false)) rfl hv
    obtain ⟨t, hstep, ht, hhost⟩ := exists_step_of_showsReset hs hnow
    rw [run_succ_of_step hstep]
    exact ih ht (hhost ▸ hlater)

/-- Settles O3: an edge of reset does not look at the command in flight, and the edges after it find a ready lane. -/
theorem resetDiscardsTheCommandInFlight : Obligations.ResetDiscardsTheCommandInFlight := by
  unfold Obligations.ResetDiscardsTheCommandInFlight
  intro s f _ hrst
  refine ⟨⟨false, step_of_reset hrst⟩, fun k hv => ?_⟩
  obtain ⟨u, hrun, hresp, hready, hpulse⟩ := exists_run_of_showsReset (s := resetLane (nextEdge s)) ⟨rfl, rfl, rfl⟩ hv
  exact ⟨u, (run_succ_of_step (step_of_reset hrst) k).trans hrun, hresp, busy_eq_zero_iff.2 hready, hpulse⟩

end Sys2Proof.Machine
end

section
/-!
What the host of a run has seen (70_reset_and_hazards.md R203): after every edge that follows a reset, the responses are those of the
accepted commands but for one in flight, and the registers hold the last of them.
-/
namespace Sys2Proof.Machine

variable {o : Observed} {p : Ports} {t : State}

/-- At a reset the host starts its notes anew. -/
theorem record_of_reset (hrst : p.rst = true) : o.record p t = ⟨t, [], []⟩ := by
  simp [Observed.record, hrst]

/-- An edge at which nothing is accepted and nothing completes leaves the host's notes as they are. -/
theorem record_of_quiet (hrst : p.rst = false) (hacc : accepts p o.lane = false) (hv : t.rspValid = false) :
    o.record p t = ⟨t, o.accepted, o.responses⟩ := by
  simp [Observed.record, hrst, hacc, hv]

/-- At an acceptance the host notes the command. -/
theorem record_of_accept (hrst : p.rst = false) (hacc : accepts p o.lane = true) (hv : t.rspValid = false) :
    o.record p t = ⟨t, o.accepted ++ [p.cmd], o.responses⟩ := by
  simp [Observed.record, hrst, hacc, hv]

/-- At a pulse of `rsp_valid` the host notes the response. -/
theorem record_of_pulse (hrst : p.rst = false) (hacc : accepts p o.lane = false) (hv : t.rspValid = true) :
    o.record p t = ⟨t, o.accepted, o.responses ++ [t.response]⟩ := by
  simp [Observed.record, hrst, hacc, hv]

theorem accepts_eq_false_of_not_valid {s : State} (hv : p.cmdValid = false) : accepts p s = false := by
  simp [accepts, hv]

theorem accepts_eq_false_of_busy {s : State} {f : InFlight} (hf : s.inFlight = some f) : accepts p s = false := by
  simp [← Bool.not_eq_true, accepts_iff, hf]

/-- A run begins anew at a reset, with the lane as it always leaves reset. -/
theorem edge_of_reset (hrst : p.rst = true) : o.edge p = .next (Observed.start State.reset) := by
  rw [edge_of_step (step_of_reset hrst), record_of_reset hrst]
  rfl

/-- The responses seen are those of the accepted commands, in order, but for one in flight; and the registers hold the last of
them, or the reset values while the host knows none (10_state.md R35). -/
def Observed.Faithful (o : Observed) : Prop :=
  o.accepted.map respond = o.responses ++ (o.lane.inFlight.toList.map fun f => respond f.cmd) ∧
    o.lane.response = o.known.getD ⟨0#128, 0#64, 0#1⟩

theorem faithful_start_reset : (Observed.start State.reset).Faithful := ⟨rfl, rfl⟩

/-- Every edge can be taken, and it keeps the notes faithful: an acceptance adds the command in flight, its completion turns that
command into a response, and no other edge without reset changes either. -/
theorem exists_edge_of_faithful (ho : o.Faithful) (p : Ports) : ∃ o', o.edge p = .next o' ∧ o'.Faithful := by
  obtain ⟨t, hstep⟩ := everyStepHasANextState (drive p o.lane)
  have hedge := edge_of_step hstep
  have hcases := step_cases hstep
  simp only [drive_portsNow, drive_inFlight] at hcases
  obtain ⟨hseen, hheld⟩ := ho
  obtain ⟨hrst, -⟩ | ⟨hrst, hf, hv, rfl⟩ | ⟨hrst, hf, hv, rfl⟩ | ⟨f, hrst, hf, -, rfl⟩ | ⟨f, hrst, hf, -, hrun⟩ :=
    hcases
  · exact ⟨_, edge_of_reset hrst, faithful_start_reset⟩
  · rw [record_of_quiet hrst (accepts_eq_false_of_not_valid hv) rfl] at hedge
    exact ⟨_, hedge, hseen, hheld⟩
  · rw [record_of_accept hrst ((accepts_iff p o.lane).2 ⟨hrst, hv, hf⟩) rfl] at hedge
    exact ⟨_, hedge, by simp [hseen, hf], hheld⟩
  · rw [record_of_quiet hrst (accepts_eq_false_of_busy hf) rfl] at hedge
    exact ⟨_, hedge, by simp [hseen, hf], hheld⟩
  · obtain ⟨u, hrun', hresp, hready, hpulse, -⟩ := exists_runCommand_eq f.cmd (nextEdge (drive p o.lane))
    cases hrun.symm.trans hrun'
    rw [record_of_pulse hrst (accepts_eq_false_of_busy hf) hpulse] at hedge
    exact ⟨_, hedge, by simp [hseen, hf, hready, hresp], by simp [Observed.known]⟩

/-- A list of edges can be taken to its end, and the notes stay faithful. -/
theorem exists_edges_of_faithful (ho : o.Faithful) (ps : List Ports) : ∃ o', o.edges ps = .next o' ∧ o'.Faithful := by
  induction ps generalizing o with
  | nil => exact ⟨o, edges_nil, ho⟩
  | cons p ps ih =>
    obtain ⟨u, hedge, hu⟩ := exists_edge_of_faithful ho p
    rw [edges_cons_of_edge hedge]
    exact ih hu

theorem faithful_of_edges {o' : Observed} {ps : List Ports} (ho : o.Faithful) (h : o.edges ps = .next o') : o'.Faithful := by
  obtain ⟨u, hu, hfaith⟩ := exists_edges_of_faithful ho ps
  rw [h] at hu
  cases hu
  exact hfaith

/-- With no command in flight every accepted command has been answered. -/
theorem responses_of_faithful_of_ready (ho : o.Faithful) (hready : o.lane.inFlight = none) :
    o.responses = runResponses o.accepted := by
  obtain ⟨hseen, -⟩ := ho
  simpa [hready, runResponses, eq_comm] using hseen

theorem response_of_faithful (ho : o.Faithful) : o.lane.response = o.responses.getLastD ⟨0#128, 0#64, 0#1⟩ := by
  obtain ⟨-, hheld⟩ := ho
  rw [hheld, Observed.known, List.getLastD_eq_getLast?]

end Sys2Proof.Machine
end

section
/-!
Scripts and schedules (70_reset_and_hazards.md R203): one turn takes a ready lane to a ready lane with one more command accepted, so a
run of any length ends ready.
-/
namespace Sys2Proof.Machine

variable {o : Observed} {c : Command}

/-- A gap in which the host does nothing leaves a ready lane ready. -/
theorem exists_edges_of_gap (hready : o.lane.inFlight = none) (gap : Nat) :
    ∃ o', o.edges (List.replicate gap Ports.idle) = .next o' ∧ o'.lane.inFlight = none ∧ o'.accepted = o.accepted := by
  induction gap generalizing o with
  | zero => exact ⟨o, edges_nil, hready, rfl⟩
  | succ gap ih =>
    have hedge := edge_of_step (step_of_idle (s := drive Ports.idle o.lane) rfl hready rfl)
    rw [record_of_quiet rfl (accepts_eq_false_of_not_valid rfl) rfl] at hedge
    rw [List.replicate_succ, edges_cons_of_edge hedge]
    exact ih hready

/-- A command in flight has completed when the edges it had to go are past. -/
theorem exists_edges_of_wait {k : Nat} (hbusy : o.lane.inFlight = some ⟨c, k + 1⟩) :
    ∃ o', o.edges (List.replicate (k + 1) Ports.idle) = .next o' ∧ o'.lane.inFlight = none ∧ o'.accepted = o.accepted := by
  induction k generalizing o with
  | zero =>
    obtain ⟨t, hstep, -, hready, hpulse, -⟩ := exists_step_of_due (s := drive Ports.idle o.lane) rfl hbusy le_rfl
    have hedge := edge_of_step hstep
    rw [record_of_pulse rfl (accepts_eq_false_of_busy hbusy) hpulse] at hedge
    exact ⟨_, edges_cons_of_edge hedge [], hready, rfl⟩
  | succ k ih =>
    have hedge := edge_of_step (step_of_wait (s := drive Ports.idle o.lane) rfl hbusy (Nat.lt_add_of_pos_left k.succ_pos))
    rw [record_of_quiet rfl (accepts_eq_false_of_busy hbusy) rfl] at hedge
    rw [List.replicate_succ, edges_cons_of_edge hedge]
    exact ih rfl

/-- One turn of a script: the gap, the acceptance, and the wait of `LAT` edges (10_state.md R33). -/
theorem exists_edges_of_turn (hready : o.lane.inFlight = none) (gap : Nat) (c : Command) :
    ∃ o', o.edges (turnPorts gap c) = .next o' ∧ o'.lane.inFlight = none ∧ o'.accepted = o.accepted ++ [c] := by
  obtain ⟨u, hgap, hready', haccepted⟩ := exists_edges_of_gap hready gap
  have hedge := edge_of_step (step_of_accept (s := drive (Ports.present c) u.lane) rfl hready' rfl)
  rw [record_of_accept rfl ((accepts_iff _ u.lane).2 ⟨rfl, rfl, hready'⟩) rfl] at hedge
  rw [turnPorts, edges_append _ hgap, edges_cons_of_edge hedge, ← haccepted]
  exact exists_edges_of_wait rfl

/-- A script played from a ready lane ends with a ready lane and with the responses `exec` gives: each turn adds the response of its
command, so the script chooses the same commands in both. -/
theorem exists_play (ho : o.Faithful) (hready : o.lane.inFlight = none) (script : Script) (n : Nat) :
    ∃ o', o.play script n = .next o' ∧ o'.Faithful ∧ o'.lane.inFlight = none ∧
      o'.responses = scriptResponses script n o.responses := by
  induction n generalizing o with
  | zero => exact ⟨o, play_zero script, ho, hready, rfl⟩
  | succ n ih =>
    cases hturn : script o.responses with
    | none => exact ⟨o, play_of_none hturn n, ho, hready, by simp [scriptResponses, hturn]⟩
    | some turn =>
      obtain ⟨gap, c⟩ := turn
      obtain ⟨u, hedges, hready', haccepted⟩ := exists_edges_of_turn hready gap c
      have hu := faithful_of_edges ho hedges
      have hresponses : u.responses = o.responses ++ [respond c] := by
        rw [responses_of_faithful_of_ready hu hready', responses_of_faithful_of_ready ho hready, haccepted]
        exact List.map_append
      rw [play_of_some hturn hedges]
      simpa [scriptResponses, hturn, hresponses] using ih hu hready'

/-- The schedule of a list of commands, from a ready lane: each command is accepted at the first edge of its share and completes at
the last. -/
theorem exists_run_of_schedule (cs : List Command) {s : State} (hready : s.inFlight = none) (hhost : s.host = hostSchedule cs) :
    ∃ t, Sys2Proof.core.run (hostSchedule cs).length s = .next t ∧
      t.response = (runResponses cs).getLastD s.response ∧ t.inFlight = none ∧ t.host = [] := by
  induction cs generalizing s with
  | nil => exact ⟨s, run_zero s, rfl, hready, hhost⟩
  | cons c cs ih =>
    have hwait : (List.replicate (latency c) Ports.idle).length = latency c := List.length_replicate
    have hrst : ∀ p ∈ (List.replicate (latency c) Ports.idle ++ hostSchedule cs).take (latency c), p.rst = false := by
      intro p hp
      rw [List.take_left' hwait] at hp
      rw [List.eq_of_mem_replicate hp]
      rfl
    obtain ⟨-, u, hrun, hresp, hbusy, -, hlater, -⟩ := acceptedCommandCompletesAtItsLatency s c _ hready hhost hrst
    rw [List.drop_left' hwait] at hlater
    obtain ⟨t, hrun', hresp', hrest⟩ := ih (busy_eq_zero_iff.1 hbusy) hlater
    refine ⟨t, ?_, ?_, hrest⟩
    · rw [length_hostSchedule_cons, Nat.add_comm 1, run_add _ hrun, hrun']
    · rw [hresp', hresp]
      exact (List.getLastD_cons ..).symm

/-- Settles O9: faithful notes along any edges, the turns of a script, and the turns of a schedule. -/
theorem runEndsWithTheLastResponse : Obligations.RunEndsWithTheLastResponse := by
  unfold Obligations.RunEndsWithTheLastResponse
  refine ⟨fun s ps => ?anyHost, fun script n s => ?script, fun cs => ?schedule⟩
  case anyHost =>
    rw [edges_cons_of_edge (edge_of_reset rfl)]
    exact exists_edges_of_faithful faithful_start_reset ps
  case script =>
    obtain ⟨o, hplay, ho, hready, hresponses⟩ := exists_play faithful_start_reset rfl script n
    have hanswered := responses_of_faithful_of_ready ho hready
    refine ⟨o, ?_, hresponses, hanswered, ?_, busy_eq_zero_iff.2 hready, hanswered ▸ response_of_faithful ho⟩
    · rw [runScript, edge_of_reset rfl]
      exact hplay
    · rw [Observed.pulses, hanswered, runResponses, List.length_map]
  case schedule =>
    obtain ⟨t, hrun, hresp, hready, hhost⟩ :=
      exists_run_of_schedule cs (s := { State.reset with host := hostSchedule cs }) rfl rfl
    exact ⟨t, hrun, hresp, busy_eq_zero_iff.2 hready, hhost⟩

end Sys2Proof.Machine
end
